-- ==== Sys2Proof/Word.lean ====
section
/-! DEFINITION. The word types of the ProgPoW mixing pipeline (spec/00_scope.md R8, R10): every datum is an unsigned
32-bit word, the seed, the height and the epoch are unsigned 64-bit words, and a digest byte has 8 bits. -/

namespace Sys2Proof

/-- `u32` of R10: an unsigned integer in `0 .. 2^32 - 1`; every operator on it wraps (R11). -/
abbrev Word := BitVec 32

/-- `u64` of R10: the width of `SEED`, `HEIGHT` and `EPOCH` (R8, R26, R36). -/
abbrev U64 := BitVec 64

/-- One byte of the serialized digest (R35) or of the memory that holds `CACHE`. -/
abbrev Byte := BitVec 8

end Sys2Proof
end

