-- ==== Sys2Proof/Config.lean ====
section
/-! DEFINITION. The configuration record `Cfg` of spec/00_scope.md R7 and the free values of the model.

`Cfg` is plain data that every state carries (`State.cfg`) and no step changes; a statement about every state is thereby
a statement about every configuration. `merge` and `math` are functions the spec leaves open (R230): a state cannot hold
a function, so `Cfg` holds a NAME of one, either the default table of R233 / R234 or an external function that is an
opaque constant below. Log entries 1 and 2.

A free value is a constant with no body: nothing can be proved of it, so a statement that holds, holds whatever it is. -/

namespace Sys2Proof

/-- Byte order of the serialized digest, the parameter `digestOrder` (R7, R69, R214). -/
inductive DigestOrder where
  | le
  | be
deriving DecidableEq, Repr

/-- Which function a `merge` or `math` parameter of `Cfg` is (R230): the default table (R233, R234) or an external
total function of the three operands, of which nothing is assumed. `id` tells several external functions apart. -/
inductive FnChoice where
  | defaultTable
  | external (id : Nat)
deriving DecidableEq, Repr

/-- The configuration record of R7: the algorithm constants the hardware is built with. Which values are legal is
`Cfg.wf` (R9). -/
structure Cfg where
  /-- rows of `MIX` -/
  numLanes : Nat
  /-- columns of `MIX`, length of each permutation -/
  numRegs : Nat
  /-- CACHEOP micro-operations per round -/
  numCacheAccesses : Nat
  /-- MATHOP micro-operations per round -/
  numMathOperations : Nat
  /-- number of 32-bit words of `CACHE`; half of it is the number of dataset items (R181) -/
  cacheSize : Nat
  /-- modulus of the cache read offset (R184) -/
  cacheWordCount : Nat
  /-- heights per epoch (R150) -/
  periodLength : Nat
  /-- multiplier of FNV1A (R121) -/
  fnvPrime : Word
  /-- start value of every fold (R123) -/
  fnvOffsetBasis : Word
  /-- multiply-with-carry multiplier of `z` (R132) -/
  kissMz : Word
  /-- multiply-with-carry multiplier of `w` (R132) -/
  kissMw : Word
  /-- linear congruential multiplier (R133) -/
  kissA : Word
  /-- linear congruential increment (R133) -/
  kissC : Word
  /-- the external merge function (R231) -/
  merge : FnChoice
  /-- the external math function (R232) -/
  math : FnChoice
  /-- capacity of the item buffer in words (R72) -/
  itemMax : Nat
  /-- byte order of the serialized digest (R214) -/
  digestOrder : DigestOrder
deriving DecidableEq, Repr

/-- The values R7 suggests "when nothing else is known". Only `State.reset` uses them, because the host asks for ONE
state after reset; every other definition takes the configuration from the state it is given (log entry 1). -/
def Cfg.suggested : Cfg where
  numLanes := 16
  numRegs := 32
  numCacheAccesses := 12
  numMathOperations := 20
  cacheSize := 4096
  cacheWordCount := 4096
  periodLength := 50
  fnvPrime := 0x01000193#32
  fnvOffsetBasis := 0x811C9DC5#32
  kissMz := 36969#32
  kissMw := 18000#32
  kissA := 69069#32
  kissC := 1234567#32
  merge := .defaultTable
  math := .defaultTable
  itemMax := 64
  digestOrder := .le

/-- The state element or output a free value stands for: it keeps the free values of different elements apart. -/
inductive FreeTag where
  | mix | gsZ | gsW | gsJsr | gsJcong | glZ | glW | glJsr | glJcong | zb | wb
  | dstSeq | srcSeq | dstCnt | srcCnt | itemIdx | item | pdst | psel | laneHash | dig
  | hostRead | cacheWord
deriving DecidableEq, Repr

namespace Config

/-- `Cfg.merge` when it is not the default table: a total function of the three operands and of nothing else, left
open by the spec (R230, R9 (h); spec/93_implementation_defined.md U1). Log entry 2. -/
opaque externalMerge : Nat → Word → Word → Word → Word

/-- `Cfg.math` when it is not the default table (R230, R9 (h); U2). Log entry 2. -/
opaque externalMath : Nat → Word → Word → Word → Word

/-- A free 32-bit value: the element it stands for, the model's counter of free values, and a position inside the
element. Used where the spec says an element holds no value (R46, U12) or a read returns an unspecified word (R250, U3).
Log entries 5 and 6. -/
opaque freeWord : FreeTag → Nat → Nat → Word

/-- A free 64-bit value: `EPOCH` when it holds no value (R46, U12). Log entry 5. -/
opaque freeEpoch : Nat → U64

/-- A free natural number: `ITEMLEN` when it holds no value (R46, U12), reduced to its bound by its user.
Log entry 5. -/
opaque freeLen : Nat → Nat

/-- A free byte: `DIGBYTES` when it holds no value (R46, U12), and the `digest_bytes` output while it is not valid
(R262, U4). Log entries 5 and 7. -/
opaque freeByte : Nat → Nat → Byte

end Config

end Sys2Proof
end

