-- ==== Sys2Proof/Syntax.lean ====
section
/-! DEFINITION. The operations of spec/opcode_table.json, one constructor each (spec/30_encoding.md), the formats their
words belong to, and the names under which a word is rejected. -/

namespace Sys2Proof

/-- Where a word stands decides how it is read (R90): in `PC` (format S), as the name of a function unit (format P), on
the host bus at `CTRL` (format H), or as the selector operand of MERGE or MATH (R96, the default tables). -/
inductive Format where
  | S
  | P
  | H
  | mergeSelector
  | mathSelector
deriving DecidableEq, Repr

/-- Every row of the opcode table. `r` is the round number and `idx` the index field of format S (R91, R92); a row
without the field carries none. The operands of a primitive (format P) are not in its word (R93). A row of the MERGE
table carries bits 31:2 of the selector, a row `k` of the MATH table the quotient `q` of `sel = 11 q + k` (R96). -/
inductive Instr where
  | idle
  | mixseed
  | laneseed (idx : BitVec 16)
  | lanefill (idx : BitVec 16)
  | epoch
  | schseed
  | fyswap (idx : BitVec 16)
  | itemsel (r : BitVec 8)
  | lookup (r : BitVec 8)
  | cacheop (r : BitVec 8) (idx : BitVec 16)
  | mathop (r : BitVec 8) (idx : BitVec 16)
  | dagplan (r : BitVec 8) (idx : BitVec 16)
  | dagmerge (r : BitVec 8) (idx : BitVec 16)
  | lanehash (idx : BitVec 16)
  | digfold (idx : BitVec 16)
  | serial
  | halt
  | fault
  | fnv1a
  | kseed
  | knext
  | nsrc
  | ndst
  | merge
  | math
  | nop
  | start
  | abort
  | mergeRow0 (hi : BitVec 30)
  | mergeRow1 (hi : BitVec 30)
  | mergeRow2 (hi : BitVec 30)
  | mergeRow3 (hi : BitVec 30)
  | mathRow0 (q : Nat)
  | mathRow1 (q : Nat)
  | mathRow2 (q : Nat)
  | mathRow3 (q : Nat)
  | mathRow4 (q : Nat)
  | mathRow5 (q : Nat)
  | mathRow6 (q : Nat)
  | mathRow7 (q : Nat)
  | mathRow8 (q : Nat)
  | mathRow9 (q : Nat)
  | mathRow10 (q : Nat)
deriving DecidableEq, Repr

/-- The format a row of the table belongs to. -/
def Instr.format : Instr → Format
  | .idle | .mixseed | .laneseed _ | .lanefill _ | .epoch | .schseed | .fyswap _ | .itemsel _ | .lookup _
  | .cacheop _ _ | .mathop _ _ | .dagplan _ _ | .dagmerge _ _ | .lanehash _ | .digfold _ | .serial | .halt | .fault => .S
  | .fnv1a | .kseed | .knext | .nsrc | .ndst | .merge | .math => .P
  | .nop | .start | .abort => .H
  | .mergeRow0 _ | .mergeRow1 _ | .mergeRow2 _ | .mergeRow3 _ => .mergeSelector
  | .mathRow0 _ | .mathRow1 _ | .mathRow2 _ | .mathRow3 _ | .mathRow4 _ | .mathRow5 _ | .mathRow6 _ | .mathRow7 _
  | .mathRow8 _ | .mathRow9 _ | .mathRow10 _ => .mathSelector

/-- Why a word is no operation of its format (R97). -/
inductive DecodeError where
  /-- `OP` is in `0x12 .. 0x1F` or `0x27 .. 0xFF`: not assigned in any format. -/
  | unassignedOp
  /-- `OP` is in `0x20 .. 0x26`, a format P code, in a word that stands in `PC`. -/
  | primitiveInPc
  /-- `OP` is in `0x00 .. 0x11`, a format S code, in a word that names a function unit. -/
  | sequencerCodeInUnit
  /-- a field the code does not have is not zero. -/
  | fieldNotZero
  /-- `r` is above 63 (bits 23:22 are always zero, R91). -/
  | roundAbove63
  /-- a `CTRL` word with `CMD` in `3 .. 15` or with any of bits 31:4 set. -/
  | reservedCommand
deriving DecidableEq, Repr

/-- What a decoder answers on a word: an operation, or the name of the reason why there is none. -/
inductive Decoded where
  | ok (i : Instr)
  | rejected (e : DecodeError)
deriving DecidableEq, Repr

end Sys2Proof
end

