-- ==== Sys2Proof/Machine/State.lean ====
section
/-! DEFINITION. The state of the machine (spec/10_state.md R20 to R48), with the platform the block is connected to (the
host bus, the lookup port, the reset input) and the model's own fields, the ways a step can stop, and the reset state.

State is plain data. The block's own elements are grouped as R20 groups them: host input state, core state, control state.
Fields marked MODEL are not the spec's; a log entry says what each is for. -/

namespace Sys2Proof.Machine

/-- A KISS99 generator: four 32-bit words (R130). -/
structure Kiss where
  z : Word
  w : Word
  jsr : Word
  jcong : Word
deriving DecidableEq, Repr

/-- The 2-bit status state `ST` (R42); its codes are in `St.code`. -/
inductive St where
  | idle
  | busy
  | done
  | error
deriving DecidableEq, Repr

/-- The sequencer register `PC = (OP, r, idx)` (R40). -/
structure Pc where
  op : BitVec 8
  r : BitVec 8
  idx : BitVec 16
deriving DecidableEq, Repr

/-- The core state (R20 (2)): everything one computation owns. -/
structure Core where
  /-- `MIX[l][k]`, the lane registers: a list of `numLanes` rows of `numRegs` words (R21) -/
  mix : List (List Word)
  /-- `GS`, the generator of the register schedule (R22) -/
  gs : Kiss
  /-- `GL`, the lane generator (R23) -/
  gl : Kiss
  /-- `ZB` (R25) -/
  zb : Word
  /-- `WB` (R25) -/
  wb : Word
  /-- `EPOCH` (R26) -/
  epoch : U64
  /-- `DSTSEQ`, register indices (R27) -/
  dstSeq : List Nat
  /-- `SRCSEQ`, register indices (R27) -/
  srcSeq : List Nat
  /-- `DSTCNT` (R29) -/
  dstCnt : Word
  /-- `SRCCNT` (R29) -/
  srcCnt : Word
  /-- `ITEMIDX` (R30) -/
  itemIdx : Word
  /-- `ITEM`, the words of the fetched item (R31) -/
  item : List Word
  /-- `ITEMLEN` (R31) -/
  itemLen : Nat
  /-- `WPL`, words per lane (R31) -/
  wpl : Nat
  /-- `PDST`, destination registers of the dataset merge, `ITEM_MAX / numLanes` entries (R32) -/
  pdst : List Nat
  /-- `PSEL`, selectors of the dataset merge, `ITEM_MAX / numLanes` entries (R32) -/
  psel : List Word
  /-- `LANEHASH`, one word per lane (R33) -/
  laneHash : List Word
  /-- `DIG`, the 8 accumulator words (R34) -/
  dig : Vector Word 8
  /-- `DIGBYTES`, the 32 bytes of the serialized digest (R35) -/
  digBytes : Vector Byte 32
deriving DecidableEq, Repr

/-- An answer on the lookup port (R70): the words of an item, or a failure with the 2-bit cause on the wire (R272). -/
inductive Answer where
  | ok (words : List Word)
  | fail (cause : BitVec 2)
deriving DecidableEq, Repr

/-- The function `Lookup : u32 -> ok(words) | fail(cause)` of R44, as plain data: the answers of the listed indices (the
first entry of an index counts) and the answer of every other index. Every function of a 32-bit index has this form. -/
structure Dataset where
  entries : List (Word × Answer)
  other : Answer
deriving DecidableEq, Repr

/-- One access of the host to the block's window (R250): a byte offset and a width in bits, and the data of a write. -/
inductive HostAccess where
  | read (offset : Word) (width : Nat)
  | write (offset : Word) (width : Nat) (data : Word)
deriving DecidableEq, Repr

/-- Which kind of function unit the word of a call names (MODEL, log entry 12). -/
inductive UnitKind where
  | primitive
  | mergeSelector
  | mathSelector
deriving DecidableEq, Repr

/-- A call of a function unit: the unit's word, of format P (R93) or a selector (R96), apart from its operands, which are in the
port (MODEL, log entry 12). -/
structure Call where
  kind : UnitKind
  word : Word
deriving DecidableEq, Repr

/-- Which agent acts in a step, and with what (R6). The order of these inputs is free; state holds the pending ones
(MODEL, log entry 9). -/
inductive Event where
  /-- the sequencer executes one micro-operation -/
  | sequencer
  /-- the host makes one access to the window -/
  | host (a : HostAccess)
  /-- the dataset responder answers the outstanding request (R70) -/
  | answer
  /-- an answer to a request whose computation was abandoned arrives (R73) -/
  | staleAnswer
  /-- the platform changes the dataset (R71, R275: outside a computation only) -/
  | dataset (d : Dataset)
  /-- the reset input is asserted (R300) -/
  | reset
deriving DecidableEq, Repr

/-- Which of the two generators a primitive works on (R24). -/
inductive GenSel where
  | gs
  | gl
deriving DecidableEq, Repr

/-- The operand and result port of a function unit (MODEL, log entry 12): the values that a calling micro-operation
hands a primitive (R93), and the 32-bit result. -/
structure UnitPort where
  /-- first operand: `h`, `z` or `a` -/
  a : Word
  /-- second operand: `d`, `w` or `b` -/
  b : Word
  /-- third operand: `jsr` or `sel` -/
  c : Word
  /-- fourth operand: `jcong` -/
  d : Word
  /-- the generator of KSEED and KNEXT -/
  gen : GenSel
  /-- the result -/
  result : Word
deriving DecidableEq, Repr

/-- The memory that holds `CACHE` (R37, R60, R62): the bytes that have been written, each at its byte offset in the host
window (R250), offsets strictly rising. A byte that is not listed holds no value (R46, R48; log entry 8). -/
abbrev Memory := List Host.Cell

/-- The state of the machine. -/
structure State where
  /-- the configuration the hardware is built with (R7, R44): no step changes it -/
  cfg : Cfg
  /-- `SEED` (R36) -/
  seed : U64
  /-- `SEED[31:0]` holds a value: the host has written it since reset (R46, R47) -/
  seedLoHeld : Bool
  /-- `SEED[63:32]` holds a value -/
  seedHiHeld : Bool
  /-- `HEIGHT` (R36) -/
  height : U64
  /-- `HEIGHT[31:0]` holds a value -/
  heightLoHeld : Bool
  /-- `HEIGHT[63:32]` holds a value -/
  heightHiHeld : Bool
  /-- `CACHE` (R37) -/
  cache : Memory
  /-- the core state (R20 (2)) -/
  core : Core
  /-- `PC` (R40) -/
  pc : Pc
  /-- `ST` (R42) -/
  st : St
  /-- `WERR` (R42) -/
  werr : Bool
  /-- `ERRCODE` (R43) -/
  errcode : BitVec 4
  /-- `ERRINFO` (R43) -/
  errinfo : Word
  /-- the dataset behind the lookup port, the function `Lookup` (R44, R70) -/
  dataset : Dataset
  /-- the answer to the outstanding request, once the responder has given it (R45, R70) -/
  resp : Option Answer
  /-- the pending inputs of the other agents, oldest first; where it is empty the sequencer acts (MODEL, log entry 9) -/
  env : List Event
  /-- the data of the last host read (MODEL, log entry 10) -/
  rdata : Word
  /-- the function unit's operands and result (MODEL, log entry 12) -/
  port : UnitPort
  /-- a call the sequencer has in hand (MODEL, log entry 12). A micro-operation makes all its calls inside its own step (R5,
  R90), so there is none at reset, no agent issues one and no step leaves one behind; only `State.withFetchWord` sets it -/
  call : Option Call
  /-- how many times free values have been handed out (MODEL, log entry 5) -/
  freeCount : Nat
deriving DecidableEq, Repr

/-- Faults: the machine stops. The spec's one exception, LookupFault, is not among them: its entry is a next state
(R274). -/
inductive Fault where
  /-- CACHEOP was led to a word index at or above `cacheSize`, which the address space of R60 does not hold. Safe (the model
  stops). Only a configuration that breaks R9 (e) can lead there, and `step` refuses such a configuration. -/
  | cacheIndexAbsent
  /-- DAGMERGE was led to a word index at or above `ITEM_MAX`, which the item buffer of R60 and R72 does not hold. Safe (the
  model stops). R66 shows that the sequence never leads there. -/
  | itemIndexAbsent
deriving DecidableEq, Repr

/-- Refusals: the model gives the input no meaning. -/
inductive Refusal where
  /-- Raised by no instruction of the finished model: an arm of `exec` without a meaning. Safe. -/
  | notModelled (mnemonic : String)
  /-- Raised by `step` for a configuration that breaks R9 (U6: refuse). Safe. -/
  | illFormedConfig
  /-- Raised by `step` for a word in `PC`, or in a call, that is no operation of its format (R97, U5: refuse). Safe. -/
  | undecodable (e : DecodeError)
  /-- Raised by `step` for a `PC` that the successor function cannot produce (R41, U5: refuse). Safe. -/
  | pcUnreachable
  /-- Raised by START while `SEED`, `HEIGHT` or some `CACHE[k]` holds no value (R47, R257, U7: refuse). Safe. -/
  | startWithoutInputs
  /-- Raised by `step` for a change of the dataset while a computation runs (R71, U9: refuse). Safe. -/
  | datasetChangedWhileBusy
deriving DecidableEq, Repr

/-- What a meaning or a step answers. -/
abbrev Result := Host.Outcome State Fault Refusal

/-- The core state after reset. The spec gives none of it a value (R48); the model names zero for every element (log entry
4). Every list has the length the spec gives it. -/
def Core.reset (c : Cfg) : Core where
  mix := List.replicate c.numLanes (List.replicate c.numRegs 0#32)
  gs := ⟨0#32, 0#32, 0#32, 0#32⟩
  gl := ⟨0#32, 0#32, 0#32, 0#32⟩
  zb := 0#32
  wb := 0#32
  epoch := 0#64
  dstSeq := List.replicate c.numRegs 0
  srcSeq := List.replicate c.numRegs 0
  dstCnt := 0#32
  srcCnt := 0#32
  itemIdx := 0#32
  item := []
  itemLen := 0
  wpl := 0
  pdst := List.replicate (c.itemMax / c.numLanes) 0
  psel := List.replicate (c.itemMax / c.numLanes) 0#32
  laneHash := List.replicate c.numLanes 0#32
  dig := Vector.replicate 8 0#32
  digBytes := Vector.replicate 32 0#8

/-- The machine right after reset, for the configuration it is built with (R48, R300): `ST`, `WERR`, `ERRCODE`, `ERRINFO` and
`PC` as the spec states them; no input holds a value; nothing pending. The values of `SEED` and `HEIGHT` are log entry 3,
those of the core state log entry 4, the platform's log entries 9 and 10. -/
def State.resetWith (c : Cfg) : State where
  cfg := c
  seed := 0#64
  seedLoHeld := false
  seedHiHeld := false
  height := 0#64
  heightLoHeld := false
  heightHiHeld := false
  cache := []
  core := Core.reset c
  pc := ⟨0x00#8, 0#8, 0#16⟩
  st := .idle
  werr := false
  errcode := 0#4
  errinfo := 0#32
  dataset := ⟨[], .fail 1#2⟩
  resp := none
  env := []
  rdata := 0#32
  port := ⟨0#32, 0#32, 0#32, 0#32, .gs, 0#32⟩
  call := none
  freeCount := 0

/-- The machine right after reset, built with the suggested configuration of R7 (log entry 1). -/
def State.reset : State := State.resetWith Cfg.suggested

end Sys2Proof.Machine
end

