-- ==== Sys2Proof/Machine/Flags.lean ====
section
/-! DEFINITION. The flags. No arithmetic operation sets or reads a flag (R11, R42): the only ones are the status state
`ST` and the sticky `WERR`, with the error code they are read together with (spec/47_host.md R252, R261). -/

namespace Sys2Proof.Machine

/-- The 2-bit code of `ST` (R42). -/
def St.code : St → BitVec 2
  | .idle => 0#2
  | .busy => 1#2
  | .done => 2#2
  | .error => 3#2

/-- The `STATUS` word (R252): `ST` in bits 1:0, `WERR` in bit 2, `ERRCODE` in bits 7:4, zero elsewhere. -/
def State.statusWord (s : State) : Word := 0#24 ++ s.errcode ++ 0#1 ++ BitVec.ofBool s.werr ++ s.st.code

/-- A refused host write: nothing changes but `WERR`, which is sticky (R260). -/
def State.refuseWrite (s : State) : State := { s with werr := true }

/-- The level output `done` (R261). -/
def State.doneOut (s : State) : Bool := s.st == .done

/-- The level output `error` (R261). -/
def State.errorOut (s : State) : Bool := s.st == .error

end Sys2Proof.Machine
end

