-- ==== Sys2Proof/Machine/Operands.lean ====
section
/-! DEFINITION. The values that micro-operations compute from their operands: the halves of a 64-bit word, the FNV-1a
step and fold, the KISS99 lanes, the source pair, the lane offset, the default MERGE and MATH tables and the choice of the
configured functions, the bytes of a digest word. All are total functions on words (R11, R281). -/

namespace Sys2Proof.Machine

/-! ### Halves of a 64-bit word (R10, R68) -/

/-- `lo32(s) = s[31:0]`. -/
def lo32 (s : U64) : Word := s.extractLsb' 0 32

/-- `hi32(s) = s[63:32]`. -/
def hi32 (s : U64) : Word := s.extractLsb' 32 32

/-- The 64-bit word `{hi, lo}`. -/
def join64 (hi lo : Word) : U64 := hi ++ lo

/-! ### FNV-1a (spec/40_fnv1a.md) -/

/-- R121: exclusive or, then multiply by the prime, modulo `2^32`. -/
def fnv1a (c : Cfg) (h d : Word) : Word := (h ^^^ d) * c.fnvPrime

/-- A fold of several words, in list order, the running hash as first argument (R122). -/
def fnvFold (c : Cfg) : Word → List Word → Word
  | h, [] => h
  | h, d :: ds => fnvFold c (fnv1a c h d) ds

/-! ### KISS99 (spec/41_kiss99.md) -/

/-- R132: `MWC(v, m)`, the constant times the low half plus the high half. -/
def mwc (v m : Word) : Word := m * (v &&& 0x0000FFFF#32) + (v >>> 16)

/-- R133: the linear congruential lane. -/
def congruential (c : Cfg) (jcong : Word) : Word := c.kissA * jcong + c.kissC

/-- R134: the xorshift lane, each stage on the result of the one before. -/
def xorshift (jsr : Word) : Word :=
  let t1 := jsr ^^^ (jsr <<< 17)
  let t2 := t1 ^^^ (t1 >>> 13)
  t2 ^^^ (t2 <<< 5)

/-- R136, the state part of KNEXT: the three lanes. -/
def kissAdvance (c : Cfg) (g : Kiss) : Kiss where
  z := mwc g.z c.kissMz
  w := mwc g.w c.kissMw
  jsr := xorshift g.jsr
  jcong := congruential c g.jcong

/-- R135: the output, taken from the updated words. -/
def kissOut (g : Kiss) : Word := (((g.z <<< 16) + g.w) ^^^ g.jcong) + g.jsr

/-- R136, KNEXT: the word returned and the generator after the call. -/
def kissNext (c : Cfg) (g : Kiss) : Word × Kiss := (kissOut (kissAdvance c g), kissAdvance c g)

/-- `n` draws, in order (R172). -/
def kissDraws (c : Cfg) : Nat → Kiss → List Word × Kiss
  | 0, g => ([], g)
  | n + 1, g => (kissOut (kissAdvance c g) :: (kissDraws c n (kissAdvance c g)).1, (kissDraws c n (kissAdvance c g)).2)

/-- R131, KSEED: the four words are stored unchanged. -/
def kissSeed (z w jsr jcong : Word) : Kiss := ⟨z, w, jsr, jcong⟩

/-- The generator of a lane (R171): `z`, `w` shared, `jsr` and `jcong` from the lane number. -/
def laneSeed (c : Cfg) (zb wb : Word) (l : Nat) : Kiss :=
  let jsr := fnv1a c wb (BitVec.ofNat 32 l)
  kissSeed zb wb jsr (fnv1a c jsr (BitVec.ofNat 32 l))

/-- The generator of the register schedule (R151): the two halves of the epoch folded twice. -/
def scheduleSeed (c : Cfg) (epoch : U64) : Kiss :=
  let z := fnv1a c c.fnvOffsetBasis (lo32 epoch)
  let w := fnv1a c z (hi32 epoch)
  let jsr := fnv1a c w (lo32 epoch)
  kissSeed z w jsr (fnv1a c jsr (hi32 epoch))

/-! ### Indices (spec/44_round.md, spec/42_schedule.md) -/

/-- `EPOCH` of a height: unsigned truncating division at 64 bits (R150). -/
def epochOf (c : Cfg) (height : U64) : U64 := BitVec.ofNat 64 (height.toNat / c.periodLength)

/-- R181: the number of dataset items, `cacheSize / 2`. -/
def numItems (c : Cfg) : Nat := c.cacheSize / 2

/-- R184: the cache word index of a lane, from the value of its `src` register. -/
def cacheOffset (c : Cfg) (v : Word) : Nat := v.toNat % c.cacheWordCount

/-- R186: the ordered pair of distinct source registers of one draw. -/
def srcPair (c : Cfg) (draw : Word) : Nat × Nat :=
  let combined := draw.toNat % (c.numRegs * (c.numRegs - 1))
  let src1 := combined % c.numRegs
  let src2 := combined / c.numRegs
  (src1, if src2 ≥ src1 then src2 + 1 else src2)

/-- R189: where lane `l` reads in the item in round `r`. -/
def laneOffset (c : Cfg) (wpl : Nat) (l r : Nat) : Nat := ((l ^^^ r) % c.numLanes) * wpl

/-- R152: two entries of a permutation file exchanged. -/
def swapEntries (xs : List Nat) (i j : Nat) : List Nat := (xs.set i (xs.getD j 0)).set j (xs.getD i 0)

/-! ### The default MERGE and MATH tables (spec/46_merge_math.md R233 to R235) -/

/-- R235: rotate left by the low five bits of the amount. -/
def rotl32 (a : Word) (n : Nat) : Word :=
  if n % 32 = 0 then a else (a <<< (n % 32)) ||| (a >>> (32 - n % 32))

/-- R235: rotate right by the low five bits of the amount. -/
def rotr32 (a : Word) (n : Nat) : Word :=
  if n % 32 = 0 then a else (a >>> (n % 32)) ||| (a <<< (32 - n % 32))

/-- R235: the high word of the unsigned 64-bit product. -/
def mulhi32 (a b : Word) : Word := BitVec.ofNat 32 (a.toNat * b.toNat / 2 ^ 32)

/-- The number of zero bits above the highest one among the low `n` bits. -/
def leadingZeros (a : Word) : Nat → Nat
  | 0 => 0
  | n + 1 => if a.getLsbD n then 0 else leadingZeros a n + 1

/-- R235: the number of leading zero bits, 32 for zero. -/
def clz32 (a : Word) : Nat := leadingZeros a 32

/-- The number of one bits among the low `n` bits. -/
def onesBelow (a : Word) : Nat → Nat
  | 0 => 0
  | n + 1 => onesBelow a n + (if a.getLsbD n then 1 else 0)

/-- R235: the number of one bits. -/
def popcount32 (a : Word) : Nat := onesBelow a 32

/-- R233, R96: the rotate amount of a MERGE selector, `((sel >> 16) % 31) + 1`. -/
def rotAmount (sel : Word) : Nat := sel.toNat / 2 ^ 16 % 31 + 1

/-- R233, row 0. -/
def mergeTable0 (a b : Word) : Word := a * 33#32 + b

/-- R233, row 1. -/
def mergeTable1 (a b : Word) : Word := (a ^^^ b) * 33#32

/-- R233, row 2. -/
def mergeTable2 (a b sel : Word) : Word := rotl32 a (rotAmount sel) ^^^ b

/-- R233, row 3. -/
def mergeTable3 (a b sel : Word) : Word := rotr32 a (rotAmount sel) ^^^ b

/-- R233: `DEFAULT_MERGE(a, b, sel)`, the row chosen by `sel % 4`. -/
def defaultMerge (a b sel : Word) : Word :=
  match sel.toNat % 4 with
  | 0 => mergeTable0 a b
  | 1 => mergeTable1 a b
  | 2 => mergeTable2 a b sel
  | _ => mergeTable3 a b sel

/-- R234, row 0. -/
def mathTable0 (a b : Word) : Word := a + b

/-- R234, row 1. -/
def mathTable1 (a b : Word) : Word := a * b

/-- R234, row 2. -/
def mathTable2 (a b : Word) : Word := mulhi32 a b

/-- R234, row 3: the unsigned minimum. -/
def mathTable3 (a b : Word) : Word := if a.toNat ≤ b.toNat then a else b

/-- R234, row 4: the amount is the low five bits of `b`. -/
def mathTable4 (a b : Word) : Word := rotl32 a b.toNat

/-- R234, row 5: the amount is the low five bits of `b`. -/
def mathTable5 (a b : Word) : Word := rotr32 a b.toNat

/-- R234, row 6. -/
def mathTable6 (a b : Word) : Word := a &&& b

/-- R234, row 7. -/
def mathTable7 (a b : Word) : Word := a ||| b

/-- R234, row 8. -/
def mathTable8 (a b : Word) : Word := a ^^^ b

/-- R234, row 9. -/
def mathTable9 (a b : Word) : Word := BitVec.ofNat 32 (clz32 a + clz32 b)

/-- R234, row 10. -/
def mathTable10 (a b : Word) : Word := BitVec.ofNat 32 (popcount32 a + popcount32 b)

/-- R234: `DEFAULT_MATH(a, b, sel)`, the row chosen by `sel % 11`. -/
def defaultMath (a b sel : Word) : Word :=
  match sel.toNat % 11 with
  | 0 => mathTable0 a b
  | 1 => mathTable1 a b
  | 2 => mathTable2 a b
  | 3 => mathTable3 a b
  | 4 => mathTable4 a b
  | 5 => mathTable5 a b
  | 6 => mathTable6 a b
  | 7 => mathTable7 a b
  | 8 => mathTable8 a b
  | 9 => mathTable9 a b
  | _ => mathTable10 a b

/-! ### The configured functions (R230 to R232) -/

/-- R231: `MERGE(a, b, sel) = Cfg.merge(a, b, sel)`. -/
def applyMerge (c : Cfg) (a b sel : Word) : Word :=
  match c.merge with
  | .defaultTable => defaultMerge a b sel
  | .external n => Config.externalMerge n a b sel

/-- R232: `MATH(a, b, sel) = Cfg.math(a, b, sel)`. -/
def applyMath (c : Cfg) (a b sel : Word) : Word :=
  match c.math with
  | .defaultTable => defaultMath a b sel
  | .external n => Config.externalMath n a b sel

/-! ### Bytes of a word -/

/-- Byte `b` of a digest word in the configured order (R214): least significant first, or most significant first. -/
def digestByte (o : DigestOrder) (w : Word) (b : Nat) : Byte :=
  match o with
  | .le => w.extractLsb' (8 * b) 8
  | .be => w.extractLsb' (8 * (3 - b)) 8

/-- Byte `j` of a word as the memory of `CACHE` keeps it, least significant first (log entry 8). -/
def byteOf (w : Word) (j : Nat) : Byte := w.extractLsb' (8 * j) 8

/-- The word of four bytes, `b0` the least significant (log entry 8). -/
def wordOfBytes (b0 b1 b2 b3 : Byte) : Word := b3 ++ b2 ++ b1 ++ b0

end Sys2Proof.Machine
end

