-- ==== Sys2Proof/Machine/Ops.lean ====
section
/-! DEFINITION. The named operations over the memory, the registers, the generators and the lookup port; taking the one
exception; beginning and abandoning a computation. Every meaning is written over these. -/

namespace Sys2Proof.Machine

/-! ### The memory of `CACHE` (spec/20_memory.md R60 to R62) -/

/-- The canonical form: addresses strictly rising. A listed byte never equals what an unlisted one reads as, since an
unlisted one holds no value. -/
def Memory.wf : Memory → Bool
  | [] => true
  | (a, _) :: rest => rest.all (fun cell => decide (a < cell.1)) && Memory.wf rest

/-- The byte at an address, where one has been written. -/
def readByte : Memory → Nat → Option Byte
  | [], _ => none
  | (x, v) :: rest, a => if x = a then some v else readByte rest a

/-- One byte written, the canonical form kept. -/
def writeByte : Memory → Nat → Byte → Memory
  | [], a, b => [(a, b)]
  | (x, v) :: rest, a, b =>
    if a < x then (a, b) :: (x, v) :: rest
    else if a = x then (a, b) :: rest
    else (x, v) :: writeByte rest a b

/-- The word whose bytes stand at `a .. a + 3`, where all four have been written. -/
def readWord (m : Memory) (a : Nat) : Option Word :=
  match readByte m a, readByte m (a + 1), readByte m (a + 2), readByte m (a + 3) with
  | some b0, some b1, some b2, some b3 => some (wordOfBytes b0 b1 b2 b3)
  | _, _, _, _ => none

/-- One word written at `a .. a + 3`. -/
def writeWord (m : Memory) (a : Nat) (w : Word) : Memory :=
  writeByte (writeByte (writeByte (writeByte m a (byteOf w 0)) (a + 1) (byteOf w 1)) (a + 2) (byteOf w 2)) (a + 3)
    (byteOf w 3)

/-- The byte offset of the cache window (R250). -/
def cacheBase : Nat := 0x80000000

/-- The byte offset of `CACHEW[k]` (R250, R255). -/
def cacheAddr (k : Nat) : Nat := cacheBase + 4 * k

/-- `CACHE[k]`, where the host has written it since reset (R46). -/
def State.cacheHeld (s : State) (k : Nat) : Option Word := readWord s.cache (cacheAddr k)

/-- `MemRead(CACHE:k, 4)` (R62). A word that holds no value, which a computation never meets (R47), reads as a free value
(log entry 8). -/
def State.cacheWord (s : State) (k : Nat) : Word := (s.cacheHeld k).getD (Config.freeWord .cacheWord s.freeCount k)

/-- `MemWrite(CACHE:k, 4, v)` (R255). -/
def State.writeCache (s : State) (k : Nat) (v : Word) : State := { s with cache := writeWord s.cache (cacheAddr k) v }

/-- `MemRead(ITEM:k, 4)` (R66): word `k` of the answer. A position of the buffer that the answer did not fill holds no value
and reads as a free value; the sequence never reads one (R66; log entry 22). -/
def State.itemWord (s : State) (k : Nat) : Word := (s.core.item[k]?).getD (Config.freeWord .item s.freeCount k)

/-! ### Updates of the state -/

/-- `PC <- (OP, r, idx)` (R12, R40). -/
def State.goto (s : State) (p : Pc) : State := { s with pc := p }

/-- The core state replaced. -/
def State.withCore (s : State) (k : Core) : State := { s with core := k }

/-- The result of a function unit (log entry 12). -/
def State.withResult (s : State) (v : Word) : State := { s with port := { s.port with result := v } }

/-- The `PCREG` word (R253): `OP` in bits 31:24, `r` in 23:16, `idx` in 15:0. -/
def State.pcreg (s : State) : Word := s.pc.op ++ s.pc.r ++ s.pc.idx

/-! ### Lane registers (R21, R199) -/

/-- `MIX[l][k]`. -/
def mixReg (mix : List (List Word)) (l k : Nat) : Word := (mix.getD l []).getD k 0#32

/-- Every lane `l` writes `f l row` into its register `dst`, where `row` is its own row before the operation (R199,
R306, R307). -/
def mixLanes (mix : List (List Word)) (dst : Nat) (f : Nat → List Word → Word) : List (List Word) :=
  mix.mapIdx fun l row => row.set dst (f l row)

/-! ### Generators and cursors (R136, R137, R160, R161) -/

/-- `KNEXT(GS)`: the word drawn and the core state after the draw. -/
def drawGs (c : Cfg) (k : Core) : Word × Core :=
  ((kissNext c k.gs).1, { k with gs := (kissNext c k.gs).2 })

/-- `NSRC()`: the cursor moves first, then `SRCSEQ` is read at `cursor % numRegs`. -/
def nextSrc (c : Cfg) (k : Core) : Nat × Core :=
  (k.srcSeq.getD ((k.srcCnt + 1#32).toNat % c.numRegs) 0, { k with srcCnt := k.srcCnt + 1#32 })

/-- `NDST()`: the same on the destination file and cursor. -/
def nextDst (c : Cfg) (k : Core) : Nat × Core :=
  (k.dstSeq.getD ((k.dstCnt + 1#32).toNat % c.numRegs) 0, { k with dstCnt := k.dstCnt + 1#32 })

/-- The generator a primitive is handed (R24). -/
def State.gen (s : State) : GenSel → Kiss
  | .gs => s.core.gs
  | .gl => s.core.gl

/-- The generator a primitive is handed, written. -/
def State.withGen (s : State) (sel : GenSel) (g : Kiss) : State :=
  match sel with
  | .gs => { s with core := { s.core with gs := g } }
  | .gl => { s with core := { s.core with gl := g } }

/-! ### Core state that holds no value (R46, R257, R258, R274) -/

/-- `n` free words of one element. -/
def freeWords (t : FreeTag) (count n : Nat) : List Word := (List.range n).map (Config.freeWord t count)

/-- The core state when it holds no value: every element a free value, within the bounds that R21 to R35 set for it (the
lengths, the register indices below `numRegs`, `ITEMLEN <= ITEM_MAX`, `WPL` the lane share of `ITEMLEN`). Log entry 5. -/
def Core.noValue (c : Cfg) (n : Nat) : Core where
  mix := (List.range c.numLanes).map fun l => (List.range c.numRegs).map fun k =>
    Config.freeWord .mix n (l * c.numRegs + k)
  gs := ⟨Config.freeWord .gsZ n 0, Config.freeWord .gsW n 0, Config.freeWord .gsJsr n 0, Config.freeWord .gsJcong n 0⟩
  gl := ⟨Config.freeWord .glZ n 0, Config.freeWord .glW n 0, Config.freeWord .glJsr n 0, Config.freeWord .glJcong n 0⟩
  zb := Config.freeWord .zb n 0
  wb := Config.freeWord .wb n 0
  epoch := Config.freeEpoch n
  dstSeq := (freeWords .dstSeq n c.numRegs).map fun w => w.toNat % c.numRegs
  srcSeq := (freeWords .srcSeq n c.numRegs).map fun w => w.toNat % c.numRegs
  dstCnt := Config.freeWord .dstCnt n 0
  srcCnt := Config.freeWord .srcCnt n 0
  itemIdx := Config.freeWord .itemIdx n 0
  item := freeWords .item n (Config.freeLen n % (c.itemMax + 1))
  itemLen := Config.freeLen n % (c.itemMax + 1)
  wpl := Config.freeLen n % (c.itemMax + 1) / c.numLanes
  pdst := (freeWords .pdst n (c.itemMax / c.numLanes)).map fun w => w.toNat % c.numRegs
  psel := freeWords .psel n (c.itemMax / c.numLanes)
  laneHash := freeWords .laneHash n c.numLanes
  dig := Vector.ofFn fun j => Config.freeWord .dig n j.val
  digBytes := Vector.ofFn fun j => Config.freeByte n j.val

/-- All core state <- no value. An answer that is waiting belongs to the computation that ends here and is discarded
with it (R73). -/
def State.dropCore (s : State) : State :=
  { s with core := Core.noValue s.cfg s.freeCount, resp := none, freeCount := s.freeCount + 1 }

/-! ### The exception (spec/60_exceptions.md) -/

/-- R272: the cause recorded for a wire cause; the reserved values 0 and 3 are recorded as 1. -/
def recordedCause (wire : BitVec 2) : BitVec 4 := if wire = 2#2 then 2#4 else 1#4

/-- R274, fault entry of `LookupFault(cause, index)`: `ST` is ERROR, `ERRCODE` the cause, `ERRINFO` the index, `PC` stands at
FAULT and no core state holds a value. The inputs and `WERR` are unchanged. There is no return (R275): only START or
reset leads on from here. -/
def State.lookupFault (s : State) (cause : BitVec 4) (index : Word) : State :=
  { s.dropCore with st := .error, errcode := cause, errinfo := index, pc := ⟨0x11#8, 0#8, 0#16⟩ }

/-! ### Beginning, ending and abandoning a computation -/

/-- Every input that START needs holds a value (R47, R302). -/
def State.inputsHeld (s : State) : Bool :=
  s.seedLoHeld && s.seedHiHeld && s.heightLoHeld && s.heightHiHeld &&
    (List.range s.cfg.cacheSize).all fun k => (s.cacheHeld k).isSome

/-- An accepted START (R257). -/
def State.beginRun (s : State) : State :=
  { s.dropCore with st := .busy, werr := false, errcode := 0#4, errinfo := 0#32, pc := ⟨0x01#8, 0#8, 0#16⟩ }

/-- ABORT of a computation in flight (R258). -/
def State.abandonRun (s : State) : State := { s.dropCore with st := .idle, pc := ⟨0x00#8, 0#8, 0#16⟩ }

/-- Entering HALT (R215): `PC` stands at HALT and `ST` is DONE. -/
def State.enterHalt (s : State) : State := { s with st := .done, pc := ⟨0x10#8, 0#8, 0#16⟩ }

/-! ### The lookup port (R70 to R73, R45) -/

/-- `Lookup(index)` (R44, R70). -/
def Dataset.lookup (d : Dataset) (index : Word) : Answer :=
  match d.entries.find? (fun e => e.1 == index) with
  | some e => e.2
  | none => d.other

/-- A request is outstanding exactly while the sequencer stands at LOOKUP and has no answer (R45, R182). -/
def State.lookupOutstanding (s : State) : Bool := s.st == .busy && s.pc.op == 0x08#8 && s.resp.isNone

/-- The request index on the port, `lk_index` (R70). -/
def State.lookupIndex (s : State) : Word := s.core.itemIdx

/-- The responder answers: the answer is the dataset's for the requested index (R71); with no request outstanding it is
discarded (R73). -/
def State.takeAnswer (s : State) : State :=
  if s.lookupOutstanding then { s with resp := some (s.dataset.lookup s.lookupIndex) } else s

/-! ### Reset (spec/70_reset_and_hazards.md R300) -/

/-- The reset input: every element of the block as `State.resetWith` gives it; an outstanding answer is discarded. What
belongs to the platform (the dataset, the pending inputs, the data the host has read, the model's operand port) and the
counter of free values stay (log entry 25). -/
def State.resetInput (s : State) : State :=
  { State.resetWith s.cfg with
    dataset := s.dataset, env := s.env, rdata := s.rdata, port := s.port, freeCount := s.freeCount }

end Sys2Proof.Machine
end

