-- ==== Sys2Proof/Machine/Fnv.lean ====
section
/-! DEFINITION. The meaning of FNV1A (spec/40_fnv1a.md) as a call, on the operands in the port (log entry 12). -/

namespace Sys2Proof.Machine

/-- R121: `h` is operand `a`, `d` is operand `b`; the function unit holds no register and has no side effect (R120). -/
def execFnv1a (s : State) : Result := .next (s.withResult (fnv1a s.cfg s.port.a s.port.b))

end Sys2Proof.Machine
end

