-- ==== Sys2Proof/Machine/HostInterface.lean ====
section
/-! DEFINITION. The host commands NOP, START and ABORT, and the register window (spec/47_host.md). -/

namespace Sys2Proof.Machine

/-- R259: nothing, in any `ST`. -/
def execNop (s : State) : Result := .next s

/-- R257: refused with `WERR` while BUSY; refused by the model while an input holds no value (R47, U7); else a
computation begins from scratch. -/
def execStart (s : State) : Result :=
  if s.st = .busy then .next s.refuseWrite
  else if s.inputsHeld then .next s.beginRun
  else .refused .startWithoutInputs

/-- R258: a computation in flight is abandoned; in any other `ST` nothing happens. -/
def execAbort (s : State) : Result :=
  if s.st = .busy then .next s.abandonRun else .next s

/-! ### The register window (R250) -/

/-- What stands at a byte offset of the window. -/
inductive WindowReg where
  | ctrl
  | status
  | pcreg
  | errinfo
  | seedLo
  | seedHi
  | heightLo
  | heightHi
  | dig (j : Fin 8)
  | cacheWord (k : Nat)
  | unused
deriving DecidableEq, Repr

/-- R250: the map of the window. -/
def windowReg (c : Cfg) (offset : Word) : WindowReg :=
  match offset.toNat with
  | 0x000 => .ctrl
  | 0x004 => .status
  | 0x008 => .pcreg
  | 0x00C => .errinfo
  | 0x010 => .seedLo
  | 0x014 => .seedHi
  | 0x018 => .heightLo
  | 0x01C => .heightHi
  | n =>
    if h : 0x020 ≤ n ∧ n ≤ 0x03C then .dig ⟨(n - 0x020) / 4, by omega⟩
    else if cacheBase ≤ n ∧ (n - cacheBase) / 4 < c.cacheSize then .cacheWord ((n - cacheBase) / 4)
    else .unused

/-- R250, R74: an access is 32 bits wide at a multiple of 4. -/
def accessLegal (offset : Word) (width : Nat) : Bool := width == 32 && offset.toNat % 4 == 0

/-- A read of a register half: the half where it holds a value, else a free word (R250, U3; log entry 6). -/
def State.readHalf (s : State) (held : Bool) (v : Word) : State :=
  if held then { s with rdata := v }
  else { s with rdata := Config.freeWord .hostRead s.freeCount 0, freeCount := s.freeCount + 1 }

/-- A host read (R250 to R256, R263): the data appears in `rdata`; no read has a side effect on the block (R75). -/
def State.hostRead (s : State) (offset : Word) (width : Nat) : State :=
  if accessLegal offset width then
    match windowReg s.cfg offset with
    | .ctrl => { s with rdata := 0#32 }
    | .status => { s with rdata := s.statusWord }
    | .pcreg => { s with rdata := s.pcreg }
    | .errinfo => { s with rdata := s.errinfo }
    | .seedLo => s.readHalf s.seedLoHeld (lo32 s.seed)
    | .seedHi => s.readHalf s.seedHiHeld (hi32 s.seed)
    | .heightLo => s.readHalf s.heightLoHeld (lo32 s.height)
    | .heightHi => s.readHalf s.heightHiHeld (hi32 s.height)
    | .dig j => { s with rdata := if s.st = .done then s.core.dig[j] else 0#32 }
    | .cacheWord k =>
      if s.st = .busy then { s with rdata := 0#32 }
      else s.readHalf (s.cacheHeld k).isSome ((s.cacheHeld k).getD 0#32)
    | .unused => { s with rdata := 0#32 }
  else { s with rdata := 0#32 }

/-- A host write to any register but `CTRL` (R254, R255, R260): accepted for the inputs while `ST` is not BUSY, refused
otherwise. -/
def State.hostWriteData (s : State) (reg : WindowReg) (v : Word) : State :=
  if s.st = .busy then s.refuseWrite
  else match reg with
    | .seedLo => { s with seed := join64 (hi32 s.seed) v, seedLoHeld := true }
    | .seedHi => { s with seed := join64 v (lo32 s.seed), seedHiHeld := true }
    | .heightLo => { s with height := join64 (hi32 s.height) v, heightLoHeld := true }
    | .heightHi => { s with height := join64 v (lo32 s.height), heightHiHeld := true }
    | .cacheWord k => s.writeCache k v
    | .ctrl | .status | .pcreg | .errinfo | .dig _ | .unused => s.refuseWrite

/-! ### Outputs beside the window -/

/-- Byte `n` of the `digest_bytes` output (R262): `DIGBYTES[n]` while `ST` is DONE, else an unspecified value (U4; log
entry 7). -/
def State.digestOut (s : State) (n : Fin 32) : Byte :=
  if s.st = .done then s.core.digBytes[n] else Config.freeByte s.freeCount n.val

end Sys2Proof.Machine
end

