-- ==== Sys2Proof/Machine/Kiss99.lean ====
section
/-! DEFINITION. The meanings of KSEED and KNEXT (spec/41_kiss99.md) run by themselves, on the operands in the port and
the generator it names (log entry 12). -/

namespace Sys2Proof.Machine

/-- R131: the four seed words are stored unchanged in the generator. -/
def execKseed (s : State) : Result :=
  .next (s.withGen s.port.gen (kissSeed s.port.a s.port.b s.port.c s.port.d))

/-- R136: one draw from the generator; it changes no other one (R137). -/
def execKnext (s : State) : Result :=
  .next ((s.withGen s.port.gen (kissNext s.cfg (s.gen s.port.gen)).2).withResult
    (kissNext s.cfg (s.gen s.port.gen)).1)

end Sys2Proof.Machine
end

