-- ==== Sys2Proof/Decode.lean ====
section
/-! DEFINITION. The decoders of the formats (spec/30_encoding.md R90 to R98) and, after them, the encoder.

A word is told apart by where it stands and inside one format by `OP` or `CMD` alone (R90): `decode` takes the format. All
formats are 32 bits wide and no other length exists (R98). A reserved word is rejected by name (R97). -/

namespace Sys2Proof

/-- Bits 31:24, the field `OP` of formats S and P (R91, R93). -/
def opField (w : Word) : BitVec 8 := w.extractLsb' 24 8

/-- Bits 23:16, the field `r` of format S (R91). -/
def roundField (w : Word) : BitVec 8 := w.extractLsb' 16 8

/-- Bits 15:0, the field `idx` of format S (R91). -/
def idxField (w : Word) : BitVec 16 := w.extractLsb' 0 16

/-- A code that has neither `r` nor `idx`: both are zero (R91, R92). -/
def decodePlain (w : Word) (i : Instr) : Decoded :=
  if roundField w = 0#8 ∧ idxField w = 0#16 then .ok i else .rejected .fieldNotZero

/-- A code that has `idx` only. -/
def decodeIdx (w : Word) (f : BitVec 16 → Instr) : Decoded :=
  if roundField w = 0#8 then .ok (f (idxField w)) else .rejected .fieldNotZero

/-- A code that has `r` only; `r` is at most 63 (R91). -/
def decodeRound (w : Word) (f : BitVec 8 → Instr) : Decoded :=
  if (roundField w).toNat ≤ 63 then
    if idxField w = 0#16 then .ok (f (roundField w)) else .rejected .fieldNotZero
  else .rejected .roundAbove63

/-- A code that has `r` and `idx`. -/
def decodeRoundIdx (w : Word) (f : BitVec 8 → BitVec 16 → Instr) : Decoded :=
  if (roundField w).toNat ≤ 63 then .ok (f (roundField w) (idxField w)) else .rejected .roundAbove63

/-- Format S, the micro-operations (R92); the other codes are rejected (R97). -/
def decodeS (w : Word) : Decoded :=
  match (opField w).toNat with
  | 0x00 => decodePlain w .idle
  | 0x01 => decodePlain w .mixseed
  | 0x02 => decodeIdx w .laneseed
  | 0x03 => decodeIdx w .lanefill
  | 0x04 => decodePlain w .epoch
  | 0x05 => decodePlain w .schseed
  | 0x06 => decodeIdx w .fyswap
  | 0x07 => decodeRound w .itemsel
  | 0x08 => decodeRound w .lookup
  | 0x09 => decodeRoundIdx w .cacheop
  | 0x0A => decodeRoundIdx w .mathop
  | 0x0B => decodeRoundIdx w .dagplan
  | 0x0C => decodeRoundIdx w .dagmerge
  | 0x0D => decodeIdx w .lanehash
  | 0x0E => decodeIdx w .digfold
  | 0x0F => decodePlain w .serial
  | 0x10 => decodePlain w .halt
  | 0x11 => decodePlain w .fault
  | n => if 0x20 ≤ n ∧ n ≤ 0x26 then .rejected .primitiveInPc else .rejected .unassignedOp

/-- Format P, the primitive functions: the word is the code and 24 zero bits (R93). -/
def decodeP (w : Word) : Decoded :=
  match (opField w).toNat with
  | 0x20 => decodePlain w .fnv1a
  | 0x21 => decodePlain w .kseed
  | 0x22 => decodePlain w .knext
  | 0x23 => decodePlain w .nsrc
  | 0x24 => decodePlain w .ndst
  | 0x25 => decodePlain w .merge
  | 0x26 => decodePlain w .math
  | n => if n ≤ 0x11 then .rejected .sequencerCodeInUnit else .rejected .unassignedOp

/-- Format H, the data word of a host write to `CTRL` (R94): bits 31:4 zero and `CMD` 0, 1 or 2. -/
def decodeH (w : Word) : Decoded :=
  match w.toNat with
  | 0 => .ok .nop
  | 1 => .ok .start
  | 2 => .ok .abort
  | _ => .rejected .reservedCommand

/-- Bits 31:2 of a MERGE selector: the rotate field 31:16 and the ignored bits 15:2 (R96). -/
def selectorHigh (w : Word) : BitVec 30 := w.extractLsb' 2 30

/-- A selector of MERGE under the default table: the row is `sel[1:0]` (R96, R233). -/
def decodeMergeSelector (w : Word) : Decoded :=
  match (w.extractLsb' 0 2).toNat with
  | 0 => .ok (.mergeRow0 (selectorHigh w))
  | 1 => .ok (.mergeRow1 (selectorHigh w))
  | 2 => .ok (.mergeRow2 (selectorHigh w))
  | _ => .ok (.mergeRow3 (selectorHigh w))

/-- A selector of MATH under the default table: the row is `sel % 11`, a residue and not a bit pattern (R96, R234). -/
def decodeMathSelector (w : Word) : Decoded :=
  match w.toNat % 11 with
  | 0 => .ok (.mathRow0 (w.toNat / 11))
  | 1 => .ok (.mathRow1 (w.toNat / 11))
  | 2 => .ok (.mathRow2 (w.toNat / 11))
  | 3 => .ok (.mathRow3 (w.toNat / 11))
  | 4 => .ok (.mathRow4 (w.toNat / 11))
  | 5 => .ok (.mathRow5 (w.toNat / 11))
  | 6 => .ok (.mathRow6 (w.toNat / 11))
  | 7 => .ok (.mathRow7 (w.toNat / 11))
  | 8 => .ok (.mathRow8 (w.toNat / 11))
  | 9 => .ok (.mathRow9 (w.toNat / 11))
  | _ => .ok (.mathRow10 (w.toNat / 11))

/-- The decoder: total on every word of every format (R90). -/
def decode : Format → Word → Decoded
  | .S, w => decodeS w
  | .P, w => decodeP w
  | .H, w => decodeH w
  | .mergeSelector, w => decodeMergeSelector w
  | .mathSelector, w => decodeMathSelector w

/-- The format whose decoder reads a word of the opcode table when only the word and its width are known. The table's
rows of formats S, P and H have all 32 bits (their `OP` or `CMD` field is fixed up to bit 31): such a word is read as format
S, then P, then H. A narrower row is a selector row: a MERGE row fixes bits 1:0 (one byte), a wider one is a MATH row.
`IDLE` and `NOP` have the same word, and a MATH row has no bit pattern at all: log entry 14. -/
def tableFormat (nbits : Nat) (w : Word) : Format :=
  if nbits ≤ 8 then .mergeSelector
  else if nbits < 32 then .mathSelector
  else match decodeS w with
    | .ok _ => .S
    | .rejected _ =>
      match decodeP w with
      | .ok _ => .P
      | .rejected _ => .H

/-- The instruction read from a word of the opcode table (the host's question); no instruction for a word of more than
32 bits or a word that its format rejects. -/
def decodeTableWord (nbits w : Nat) : Option Instr :=
  if w < 2 ^ 32 ∧ nbits ≤ 32 then
    match decode (tableFormat nbits (BitVec.ofNat 32 w)) (BitVec.ofNat 32 w) with
    | .ok i => some i
    | .rejected _ => none
  else none

/-! ### The encoder -/

/-- `OP`, `r` and `idx` put together as R91 lays them out. -/
def fieldsWord (op r : BitVec 8) (idx : BitVec 16) : Word := op ++ r ++ idx

/-- The selector of row `k` of the MERGE table (R96). -/
def mergeSelectorWord (hi : BitVec 30) (k : BitVec 2) : Word := hi ++ k

/-- The selector of row `k` of the MATH table with quotient `q` (R96). -/
def mathSelectorWord (q k : Nat) : Word := BitVec.ofNat 32 (11 * q + k)

/-- The word of an instruction, from the tables of R92, R93, R94 and R96. -/
def encode : Instr → Word
  | .idle => fieldsWord 0x00#8 0#8 0#16
  | .mixseed => fieldsWord 0x01#8 0#8 0#16
  | .laneseed l => fieldsWord 0x02#8 0#8 l
  | .lanefill l => fieldsWord 0x03#8 0#8 l
  | .epoch => fieldsWord 0x04#8 0#8 0#16
  | .schseed => fieldsWord 0x05#8 0#8 0#16
  | .fyswap i => fieldsWord 0x06#8 0#8 i
  | .itemsel r => fieldsWord 0x07#8 r 0#16
  | .lookup r => fieldsWord 0x08#8 r 0#16
  | .cacheop r i => fieldsWord 0x09#8 r i
  | .mathop r i => fieldsWord 0x0A#8 r i
  | .dagplan r i => fieldsWord 0x0B#8 r i
  | .dagmerge r i => fieldsWord 0x0C#8 r i
  | .lanehash l => fieldsWord 0x0D#8 0#8 l
  | .digfold l => fieldsWord 0x0E#8 0#8 l
  | .serial => fieldsWord 0x0F#8 0#8 0#16
  | .halt => fieldsWord 0x10#8 0#8 0#16
  | .fault => fieldsWord 0x11#8 0#8 0#16
  | .fnv1a => fieldsWord 0x20#8 0#8 0#16
  | .kseed => fieldsWord 0x21#8 0#8 0#16
  | .knext => fieldsWord 0x22#8 0#8 0#16
  | .nsrc => fieldsWord 0x23#8 0#8 0#16
  | .ndst => fieldsWord 0x24#8 0#8 0#16
  | .merge => fieldsWord 0x25#8 0#8 0#16
  | .math => fieldsWord 0x26#8 0#8 0#16
  | .nop => 0#32
  | .start => 1#32
  | .abort => 2#32
  | .mergeRow0 hi => mergeSelectorWord hi 0#2
  | .mergeRow1 hi => mergeSelectorWord hi 1#2
  | .mergeRow2 hi => mergeSelectorWord hi 2#2
  | .mergeRow3 hi => mergeSelectorWord hi 3#2
  | .mathRow0 q => mathSelectorWord q 0
  | .mathRow1 q => mathSelectorWord q 1
  | .mathRow2 q => mathSelectorWord q 2
  | .mathRow3 q => mathSelectorWord q 3
  | .mathRow4 q => mathSelectorWord q 4
  | .mathRow5 q => mathSelectorWord q 5
  | .mathRow6 q => mathSelectorWord q 6
  | .mathRow7 q => mathSelectorWord q 7
  | .mathRow8 q => mathSelectorWord q 8
  | .mathRow9 q => mathSelectorWord q 9
  | .mathRow10 q => mathSelectorWord q 10

end Sys2Proof
end

