-- ==== Sys2Proof/Machine/MergeMath.lean ====
section
/-! DEFINITION. MERGE and MATH (spec/46_merge_math.md) run by themselves on the operands in the port (log entry 12), and the
rows of the default tables, each run with a selector that picks it (log entry 13). -/

namespace Sys2Proof.Machine

/-- R231: the configured function of the operands `a`, `b`, `sel`. -/
def execMerge (s : State) : Result := .next (s.withResult (applyMerge s.cfg s.port.a s.port.b s.port.c))

/-- R232: the configured function of the operands `a`, `b`, `sel`. -/
def execMath (s : State) : Result := .next (s.withResult (applyMath s.cfg s.port.a s.port.b s.port.c))

/-- R233, row 0: the rotate field and the ignored bits of the selector do not enter. -/
def execMergeRow0 (_hi : BitVec 30) (s : State) : Result := .next (s.withResult (mergeTable0 s.port.a s.port.b))

/-- R233, row 1: the rotate field and the ignored bits of the selector do not enter. -/
def execMergeRow1 (_hi : BitVec 30) (s : State) : Result := .next (s.withResult (mergeTable1 s.port.a s.port.b))

/-- R233, row 2: the rotate amount is the selector's; bits 15:2 are ignored. -/
def execMergeRow2 (hi : BitVec 30) (s : State) : Result :=
  .next (s.withResult (mergeTable2 s.port.a s.port.b (mergeSelectorWord hi 2#2)))

/-- R233, row 3: the rotate amount is the selector's; bits 15:2 are ignored. -/
def execMergeRow3 (hi : BitVec 30) (s : State) : Result :=
  .next (s.withResult (mergeTable3 s.port.a s.port.b (mergeSelectorWord hi 3#2)))

/-- R234, row 0: the quotient of the selector does not enter. -/
def execMathRow0 (_q : Nat) (s : State) : Result := .next (s.withResult (mathTable0 s.port.a s.port.b))

/-- R234, row 1: the quotient of the selector does not enter. -/
def execMathRow1 (_q : Nat) (s : State) : Result := .next (s.withResult (mathTable1 s.port.a s.port.b))

/-- R234, row 2: the quotient of the selector does not enter. -/
def execMathRow2 (_q : Nat) (s : State) : Result := .next (s.withResult (mathTable2 s.port.a s.port.b))

/-- R234, row 3: the quotient of the selector does not enter. -/
def execMathRow3 (_q : Nat) (s : State) : Result := .next (s.withResult (mathTable3 s.port.a s.port.b))

/-- R234, row 4: the quotient of the selector does not enter. -/
def execMathRow4 (_q : Nat) (s : State) : Result := .next (s.withResult (mathTable4 s.port.a s.port.b))

/-- R234, row 5: the quotient of the selector does not enter. -/
def execMathRow5 (_q : Nat) (s : State) : Result := .next (s.withResult (mathTable5 s.port.a s.port.b))

/-- R234, row 6: the quotient of the selector does not enter. -/
def execMathRow6 (_q : Nat) (s : State) : Result := .next (s.withResult (mathTable6 s.port.a s.port.b))

/-- R234, row 7: the quotient of the selector does not enter. -/
def execMathRow7 (_q : Nat) (s : State) : Result := .next (s.withResult (mathTable7 s.port.a s.port.b))

/-- R234, row 8: the quotient of the selector does not enter. -/
def execMathRow8 (_q : Nat) (s : State) : Result := .next (s.withResult (mathTable8 s.port.a s.port.b))

/-- R234, row 9: the quotient of the selector does not enter. -/
def execMathRow9 (_q : Nat) (s : State) : Result := .next (s.withResult (mathTable9 s.port.a s.port.b))

/-- R234, row 10: the quotient of the selector does not enter. -/
def execMathRow10 (_q : Nat) (s : State) : Result := .next (s.withResult (mathTable10 s.port.a s.port.b))

end Sys2Proof.Machine
end

