-- ==== Sys2Proof/Machine/Sequence.lean ====
section
/-! DEFINITION. The hardwired microprogram: the successor function of spec/45_pipeline.md R211. It is the only control
transfer of the machine; the one data-dependent choice is `WPL`. -/

namespace Sys2Proof.Machine

/-- `endround(r)`. -/
def seqEndround (r : BitVec 8) : Pc :=
  if r.toNat < 63 then ⟨0x07#8, r + 1#8, 0#16⟩ else ⟨0x0D#8, 0#8, 0#16⟩

/-- `dmerge(r, i)`. -/
def seqDmerge (wpl : Nat) (r : BitVec 8) (i : Nat) : Pc :=
  if i < wpl then ⟨0x0C#8, r, BitVec.ofNat 16 i⟩ else seqEndround r

/-- `plan(r, i)`. -/
def seqPlan (wpl : Nat) (r : BitVec 8) (i : Nat) : Pc :=
  if i < wpl then ⟨0x0B#8, r, BitVec.ofNat 16 i⟩ else seqDmerge wpl r 0

/-- `body(r, i)` (R183, R211). -/
def seqBody (c : Cfg) (wpl : Nat) (r : BitVec 8) (i : Nat) : Pc :=
  if i < max c.numCacheAccesses c.numMathOperations then
    if i < c.numCacheAccesses then ⟨0x09#8, r, BitVec.ofNat 16 i⟩ else ⟨0x0A#8, r, BitVec.ofNat 16 i⟩
  else seqPlan wpl r 0

/-- `succ(MIXSEED)`. -/
def succMixseed : Pc := ⟨0x02#8, 0#8, 0#16⟩

/-- `succ(LANESEED l)`. -/
def succLaneseed (l : BitVec 16) : Pc := ⟨0x03#8, 0#8, l⟩

/-- `succ(LANEFILL l)`. -/
def succLanefill (c : Cfg) (l : BitVec 16) : Pc :=
  if l.toNat + 1 < c.numLanes then ⟨0x02#8, 0#8, l + 1#16⟩ else ⟨0x04#8, 0#8, 0#16⟩

/-- `succ(EPOCH)`. -/
def succEpoch : Pc := ⟨0x05#8, 0#8, 0#16⟩

/-- `succ(SCHSEED)`. -/
def succSchseed (c : Cfg) : Pc := ⟨0x06#8, 0#8, BitVec.ofNat 16 c.numRegs⟩

/-- `succ(FYSWAP i)`. -/
def succFyswap (i : BitVec 16) : Pc :=
  if 2 < i.toNat then ⟨0x06#8, 0#8, i - 1#16⟩ else ⟨0x07#8, 0#8, 0#16⟩

/-- `succ(ITEMSEL r)`. -/
def succItemsel (r : BitVec 8) : Pc := ⟨0x08#8, r, 0#16⟩

/-- `succ(LOOKUP r)`. -/
def succLookup (c : Cfg) (wpl : Nat) (r : BitVec 8) : Pc := seqBody c wpl r 0

/-- `succ(CACHEOP r, i)`. -/
def succCacheop (c : Cfg) (wpl : Nat) (r : BitVec 8) (i : BitVec 16) : Pc :=
  if i.toNat < c.numMathOperations then ⟨0x0A#8, r, i⟩ else seqBody c wpl r (i.toNat + 1)

/-- `succ(MATHOP r, i)`. -/
def succMathop (c : Cfg) (wpl : Nat) (r : BitVec 8) (i : BitVec 16) : Pc := seqBody c wpl r (i.toNat + 1)

/-- `succ(DAGPLAN r, i)`. -/
def succDagplan (wpl : Nat) (r : BitVec 8) (i : BitVec 16) : Pc := seqPlan wpl r (i.toNat + 1)

/-- `succ(DAGMERGE r, i)`. -/
def succDagmerge (wpl : Nat) (r : BitVec 8) (i : BitVec 16) : Pc := seqDmerge wpl r (i.toNat + 1)

/-- `succ(LANEHASH l)`. -/
def succLanehash (c : Cfg) (l : BitVec 16) : Pc :=
  if l.toNat + 1 < c.numLanes then ⟨0x0D#8, 0#8, l + 1#16⟩ else ⟨0x0E#8, 0#8, 0#16⟩

/-- `succ(DIGFOLD l)`. -/
def succDigfold (c : Cfg) (l : BitVec 16) : Pc :=
  if l.toNat + 1 < c.numLanes then ⟨0x0E#8, 0#8, l + 1#16⟩ else ⟨0x0F#8, 0#8, 0#16⟩

end Sys2Proof.Machine
end

