-- ==== Sys2Proof/Machine/MixInit.lean ====
section
/-! DEFINITION. Filling the lane registers from the seed (spec/43_mixinit.md): MIXSEED, LANESEED, LANEFILL. -/

namespace Sys2Proof.Machine

/-- R170: the low half of the seed folded into `ZB`, the high half on top of it into `WB`. -/
def execMixseed (s : State) : Result :=
  let zb := fnv1a s.cfg s.cfg.fnvOffsetBasis (lo32 s.seed)
  .next ((s.withCore { s.core with zb := zb, wb := fnv1a s.cfg zb (hi32 s.seed) }).goto succMixseed)

/-- R171: `GL` is overwritten completely with the lane's fresh generator. -/
def execLaneseed (l : BitVec 16) (s : State) : Result :=
  .next ((s.withCore { s.core with gl := laneSeed s.cfg s.core.zb s.core.wb l.toNat }).goto (succLaneseed l))

/-- R172: exactly `numRegs` draws from `GL`, in ascending register number. -/
def execLanefill (l : BitVec 16) (s : State) : Result :=
  let d := kissDraws s.cfg s.cfg.numRegs s.core.gl
  .next ((s.withCore { s.core with mix := s.core.mix.set l.toNat d.1, gl := d.2 }).goto (succLanefill s.cfg l))

end Sys2Proof.Machine
end

