-- ==== Sys2Proof/Machine/Pipeline.lean ====
section
/-! DEFINITION. The resting micro-operations and the digest reduction (spec/45_pipeline.md): IDLE, LANEHASH, DIGFOLD,
SERIAL, HALT, FAULT. -/

namespace Sys2Proof.Machine

/-- R217: nothing; `PC` stays `(IDLE, 0, 0)`. -/
def execIdle (s : State) : Result := .next (s.goto ⟨0x00#8, 0#8, 0#16⟩)

/-- R212: the lane's registers folded in ascending register number. -/
def execLanehash (l : BitVec 16) (s : State) : Result :=
  let h := fnvFold s.cfg s.cfg.fnvOffsetBasis (s.core.mix.getD l.toNat [])
  .next ((s.withCore { s.core with laneHash := s.core.laneHash.set l.toNat h }).goto (succLanehash s.cfg l))

/-- R213: lane 0 first sets all eight accumulators to the offset basis; the lane hash is folded into `DIG[l % 8]`. -/
def execDigfold (l : BitVec 16) (s : State) : Result :=
  let dig := if l = 0#16 then Vector.replicate 8 s.cfg.fnvOffsetBasis else s.core.dig
  let j : Fin 8 := ⟨l.toNat % 8, Nat.mod_lt _ (by decide)⟩
  .next ((s.withCore { s.core with
    dig := dig.set j.val (fnv1a s.cfg dig[j] (s.core.laneHash.getD l.toNat 0#32)) j.isLt }).goto (succDigfold s.cfg l))

/-- R214: `DIGBYTES[4j + b]` is byte `b` of `DIG[j]` in the configured order. -/
def serialize (o : DigestOrder) (dig : Vector Word 8) : Vector Byte 32 :=
  Vector.ofFn fun n : Fin 32 => digestByte o (dig[n.val / 4]'(by omega)) (n.val % 4)

/-- R214; the successor is HALT, and entering it sets `ST` to DONE (R42, R215; log entry 18). -/
def execSerial (s : State) : Result :=
  .next (s.withCore { s.core with digBytes := serialize s.cfg.digestOrder s.core.dig }).enterHalt

/-- R215: `ST` is DONE and `PC` stays `(HALT, 0, 0)`; nothing else changes. -/
def execHalt (s : State) : Result := .next s.enterHalt

/-- R216: nothing; `PC` stays `(FAULT, 0, 0)`. `ST` was set by the fault entry. -/
def execFault (s : State) : Result := .next (s.goto ⟨0x11#8, 0#8, 0#16⟩)

end Sys2Proof.Machine
end

