-- ==== Sys2Proof/Machine/Round.lean ====
section
/-! DEFINITION. The round mixer (spec/44_round.md): ITEMSEL, LOOKUP, CACHEOP, MATHOP, DAGPLAN, DAGMERGE. Each draws its
values once, before the lanes act, in the order R303 fixes; a lane reads its old row only (R307). -/

namespace Sys2Proof.Machine

/-- R181: the item index comes from register 0 of lane `r % numLanes`. -/
def execItemsel (r : BitVec 8) (s : State) : Result :=
  let v := mixReg s.core.mix (r.toNat % s.cfg.numLanes) 0
  .next ((s.withCore { s.core with itemIdx := BitVec.ofNat 32 (v.toNat % numItems s.cfg) }).goto (succItemsel r))

/-- R182: the item of an answer that fits the buffer. -/
def State.takeItem (s : State) (words : List Word) : State :=
  { s with
    resp := none
    core := { s.core with item := words, itemLen := words.length, wpl := words.length / s.cfg.numLanes } }

/-- R182: with no answer the sequencer holds and nothing changes (R73, R314); an answer that fits is taken; a failure, or an
answer longer than `ITEM_MAX`, takes the exception (R271, R272), with nothing of the item written. -/
def execLookup (r : BitVec 8) (s : State) : Result :=
  match s.resp with
  | none => .next s
  | some (.fail cause) => .next (s.lookupFault (recordedCause cause) s.core.itemIdx)
  | some (.ok words) =>
    if words.length ≤ s.cfg.itemMax then
      .next ((s.takeItem words).goto (succLookup s.cfg (words.length / s.cfg.numLanes) r))
    else .next (s.lookupFault 3#4 s.core.itemIdx)

/-- R184: `src`, `dst`, `sel` are drawn once; every lane merges the cache word at its own offset into `dst`. -/
def execCacheop (r : BitVec 8) (i : BitVec 16) (s : State) : Result :=
  let src := nextSrc s.cfg s.core
  let dst := nextDst s.cfg src.2
  let sel := drawGs s.cfg dst.2
  if s.core.mix.all (fun row => decide (cacheOffset s.cfg (row.getD src.1 0#32) < s.cfg.cacheSize)) then
    .next ((s.withCore { sel.2 with
      mix := mixLanes s.core.mix dst.1 fun _ row =>
        applyMerge s.cfg (row.getD dst.1 0#32) (s.cacheWord (cacheOffset s.cfg (row.getD src.1 0#32))) sel.1 }).goto
      (succCacheop s.cfg s.core.wpl r i))
  else .fault .cacheIndexAbsent

/-- R185, R186: three draws with NDST between the second and the third; every lane merges the math result into `dst`. -/
def execMathop (r : BitVec 8) (i : BitVec 16) (s : State) : Result :=
  let pick := drawGs s.cfg s.core
  let sel1 := drawGs s.cfg pick.2
  let dst := nextDst s.cfg sel1.2
  let sel2 := drawGs s.cfg dst.2
  .next ((s.withCore { sel2.2 with
    mix := mixLanes s.core.mix dst.1 fun _ row =>
      applyMerge s.cfg (row.getD dst.1 0#32)
        (applyMath s.cfg (row.getD (srcPair s.cfg pick.1).1 0#32) (row.getD (srcPair s.cfg pick.1).2 0#32) sel1.1)
        sel2.1 }).goto (succMathop s.cfg s.core.wpl r i))

/-- R187: register 0 for entry 0, else the next destination; a selector is drawn for every entry. -/
def execDagplan (r : BitVec 8) (i : BitVec 16) (s : State) : Result :=
  let dst := if i = 0#16 then (0, s.core) else nextDst s.cfg s.core
  let sel := drawGs s.cfg dst.2
  .next ((s.withCore { sel.2 with
    pdst := s.core.pdst.set i.toNat dst.1
    psel := s.core.psel.set i.toNat sel.1 }).goto (succDagplan s.core.wpl r i))

/-- R188, R189: every lane merges its word of the item into the planned destination. -/
def execDagmerge (r : BitVec 8) (i : BitVec 16) (s : State) : Result :=
  let dst := s.core.pdst.getD i.toNat 0
  let sel := s.core.psel.getD i.toNat 0#32
  if (List.range s.core.mix.length).all
      (fun l => decide (laneOffset s.cfg s.core.wpl l r.toNat + i.toNat < s.cfg.itemMax)) then
    .next ((s.withCore { s.core with
      mix := mixLanes s.core.mix dst fun l row =>
        applyMerge s.cfg (row.getD dst 0#32) (s.itemWord (laneOffset s.cfg s.core.wpl l r.toNat + i.toNat)) sel }).goto
      (succDagmerge s.core.wpl r i))
  else .fault .itemIndexAbsent

end Sys2Proof.Machine
end

