-- ==== Sys2Proof/Machine/Schedule.lean ====
section
/-! DEFINITION. The register permutation index generator (spec/42_schedule.md): EPOCH, SCHSEED, FYSWAP, and the
primitives NSRC and NDST run by themselves (log entry 12). -/

namespace Sys2Proof.Machine

/-- R150. -/
def execEpoch (s : State) : Result :=
  .next ((s.withCore { s.core with epoch := epochOf s.cfg s.height }).goto succEpoch)

/-- R151: `GS` seeded from the epoch, both files the identity, both cursors zero. -/
def execSchseed (s : State) : Result :=
  .next ((s.withCore { s.core with
    gs := scheduleSeed s.cfg s.core.epoch
    dstSeq := List.range s.cfg.numRegs
    srcSeq := List.range s.cfg.numRegs
    dstCnt := 0#32
    srcCnt := 0#32 }).goto (succSchseed s.cfg))

/-- R152: the first draw swaps in the destination file, the second in the source file. -/
def execFyswap (i : BitVec 16) (s : State) : Result :=
  let d := drawGs s.cfg s.core
  let e := drawGs s.cfg d.2
  .next ((s.withCore { e.2 with
    dstSeq := swapEntries s.core.dstSeq (i.toNat - 1) (d.1.toNat % i.toNat)
    srcSeq := swapEntries s.core.srcSeq (i.toNat - 1) (e.1.toNat % i.toNat) }).goto (succFyswap i))

/-- R160: the result is the register index, widened to a word. -/
def execNsrc (s : State) : Result :=
  .next ((s.withCore (nextSrc s.cfg s.core).2).withResult (BitVec.ofNat 32 (nextSrc s.cfg s.core).1))

/-- R161. -/
def execNdst (s : State) : Result :=
  .next ((s.withCore (nextDst s.cfg s.core).2).withResult (BitVec.ofNat 32 (nextDst s.cfg s.core).1))

end Sys2Proof.Machine
end

