-- ==== Sys2Proof/Machine/Dispatch.lean ====
section
/-! DEFINITION. One arm per row of the opcode table: the meaning of every operation. -/

namespace Sys2Proof.Machine

/-- The meaning of one operation on a state. -/
def exec (i : Instr) (s : State) : Host.Outcome State Fault Refusal :=
  match i with
  | .idle => Sys2Proof.Machine.execIdle s
  | .mixseed => Sys2Proof.Machine.execMixseed s
  | .laneseed idx => Sys2Proof.Machine.execLaneseed idx s
  | .lanefill idx => Sys2Proof.Machine.execLanefill idx s
  | .epoch => Sys2Proof.Machine.execEpoch s
  | .schseed => Sys2Proof.Machine.execSchseed s
  | .fyswap idx => Sys2Proof.Machine.execFyswap idx s
  | .itemsel r => Sys2Proof.Machine.execItemsel r s
  | .lookup r => Sys2Proof.Machine.execLookup r s
  | .cacheop r idx => Sys2Proof.Machine.execCacheop r idx s
  | .mathop r idx => Sys2Proof.Machine.execMathop r idx s
  | .dagplan r idx => Sys2Proof.Machine.execDagplan r idx s
  | .dagmerge r idx => Sys2Proof.Machine.execDagmerge r idx s
  | .lanehash idx => Sys2Proof.Machine.execLanehash idx s
  | .digfold idx => Sys2Proof.Machine.execDigfold idx s
  | .serial => Sys2Proof.Machine.execSerial s
  | .halt => Sys2Proof.Machine.execHalt s
  | .fault => Sys2Proof.Machine.execFault s
  | .fnv1a => Sys2Proof.Machine.execFnv1a s
  | .kseed => Sys2Proof.Machine.execKseed s
  | .knext => Sys2Proof.Machine.execKnext s
  | .nsrc => Sys2Proof.Machine.execNsrc s
  | .ndst => Sys2Proof.Machine.execNdst s
  | .merge => Sys2Proof.Machine.execMerge s
  | .math => Sys2Proof.Machine.execMath s
  | .nop => Sys2Proof.Machine.execNop s
  | .start => Sys2Proof.Machine.execStart s
  | .abort => Sys2Proof.Machine.execAbort s
  | .mergeRow0 hi => Sys2Proof.Machine.execMergeRow0 hi s
  | .mergeRow1 hi => Sys2Proof.Machine.execMergeRow1 hi s
  | .mergeRow2 hi => Sys2Proof.Machine.execMergeRow2 hi s
  | .mergeRow3 hi => Sys2Proof.Machine.execMergeRow3 hi s
  | .mathRow0 q => Sys2Proof.Machine.execMathRow0 q s
  | .mathRow1 q => Sys2Proof.Machine.execMathRow1 q s
  | .mathRow2 q => Sys2Proof.Machine.execMathRow2 q s
  | .mathRow3 q => Sys2Proof.Machine.execMathRow3 q s
  | .mathRow4 q => Sys2Proof.Machine.execMathRow4 q s
  | .mathRow5 q => Sys2Proof.Machine.execMathRow5 q s
  | .mathRow6 q => Sys2Proof.Machine.execMathRow6 q s
  | .mathRow7 q => Sys2Proof.Machine.execMathRow7 q s
  | .mathRow8 q => Sys2Proof.Machine.execMathRow8 q s
  | .mathRow9 q => Sys2Proof.Machine.execMathRow9 q s
  | .mathRow10 q => Sys2Proof.Machine.execMathRow10 q s

end Sys2Proof.Machine
end

