-- ==== Sys2Proof/WellFormed.lean ====
section
/-! DEFINITION. Which configurations, instructions and sequencer positions are legal. -/

namespace Sys2Proof

/-- R9: the conditions (a) to (g) under which a configuration is well-formed ((h) holds by construction: `merge` and
`math` name total functions). The model gives no meaning to any other configuration (U6). -/
def Cfg.wf (c : Cfg) : Bool :=
  decide (1 ≤ c.numLanes ∧ c.numLanes ≤ 65535 ∧ 2 ≤ c.numRegs ∧ c.numRegs ≤ 65535 ∧
    c.numCacheAccesses ≤ 65535 ∧ c.numMathOperations ≤ 65535 ∧ 2 ≤ c.cacheSize ∧ c.cacheSize ≤ 2 ^ 29 ∧
    1 ≤ c.cacheWordCount ∧ c.cacheWordCount ≤ c.cacheSize ∧ 1 ≤ c.periodLength ∧ c.periodLength < 2 ^ 64 ∧
    c.itemMax / c.numLanes ≤ 65535)

/-- What the encoding admits: a round number is at most 63 (R91), and the selector `11 q + k` of a MATH row is a 32-bit
word (R96, R234). -/
def Instr.wf : Instr → Bool
  | .itemsel r | .lookup r | .cacheop r _ | .mathop r _ | .dagplan r _ | .dagmerge r _ => decide (r.toNat ≤ 63)
  | .mathRow0 q => decide (11 * q < 2 ^ 32)
  | .mathRow1 q => decide (11 * q + 1 < 2 ^ 32)
  | .mathRow2 q => decide (11 * q + 2 < 2 ^ 32)
  | .mathRow3 q => decide (11 * q + 3 < 2 ^ 32)
  | .mathRow4 q => decide (11 * q + 4 < 2 ^ 32)
  | .mathRow5 q => decide (11 * q + 5 < 2 ^ 32)
  | .mathRow6 q => decide (11 * q + 6 < 2 ^ 32)
  | .mathRow7 q => decide (11 * q + 7 < 2 ^ 32)
  | .mathRow8 q => decide (11 * q + 8 < 2 ^ 32)
  | .mathRow9 q => decide (11 * q + 9 < 2 ^ 32)
  | .mathRow10 q => decide (11 * q + 10 < 2 ^ 32)
  | .idle | .mixseed | .laneseed _ | .lanefill _ | .epoch | .schseed | .fyswap _ | .lanehash _ | .digfold _
  | .serial | .halt | .fault | .fnv1a | .kseed | .knext | .nsrc | .ndst | .merge | .math | .nop | .start | .abort
  | .mergeRow0 _ | .mergeRow1 _ | .mergeRow2 _ | .mergeRow3 _ => true

/-- The positions the successor function R211 can produce under a configuration: a lane below `numLanes`, a
Fisher-Yates bound from `numRegs` down to 2, an iteration below its count, an entry below the greatest `WPL` an answer can
give (`ITEM_MAX / numLanes`). A `PC` outside them is unreachable and the model refuses it (R41, U5; log entry 15). Of an
operation that is not held in `PC` nothing is asked. -/
def Instr.inRange (c : Cfg) : Instr → Bool
  | .laneseed l | .lanefill l | .lanehash l | .digfold l => decide (l.toNat < c.numLanes)
  | .fyswap i => decide (2 ≤ i.toNat) && decide (i.toNat ≤ c.numRegs)
  | .itemsel r | .lookup r => decide (r.toNat ≤ 63)
  | .cacheop r i => decide (r.toNat ≤ 63) && decide (i.toNat < c.numCacheAccesses)
  | .mathop r i => decide (r.toNat ≤ 63) && decide (i.toNat < c.numMathOperations)
  | .dagplan r i | .dagmerge r i => decide (r.toNat ≤ 63) && decide (i.toNat < c.itemMax / c.numLanes)
  | .idle | .mixseed | .epoch | .schseed | .serial | .halt | .fault | .fnv1a | .kseed | .knext | .nsrc | .ndst | .merge
  | .math | .nop | .start | .abort | .mergeRow0 _ | .mergeRow1 _ | .mergeRow2 _ | .mergeRow3 _ | .mathRow0 _ | .mathRow1 _
  | .mathRow2 _ | .mathRow3 _ | .mathRow4 _ | .mathRow5 _ | .mathRow6 _ | .mathRow7 _ | .mathRow8 _ | .mathRow9 _
  | .mathRow10 _ => true

end Sys2Proof
end

