-- ==== Sys2Proof/Machine/Fetch.lean ====
section
/-! DEFINITION. What the next step does: which agent acts (R6), where its word stands and what it is decoded to. `Step.lean`
only runs what `fetch` answers. -/

namespace Sys2Proof.Machine

/-- What a step is: an instruction run on a state, or an outcome that needs no instruction. -/
inductive Fetched where
  | run (i : Instr) (s : State)
  | settled (o : Result)
deriving Repr

/-- The sequencer's micro-operation: the word in `PC` decoded as format S (R91, R92). A word that is no micro-operation or
a position the successor function cannot produce is refused (R41, R97, U5). -/
def fetchPc (s : State) : Fetched :=
  match decode .S s.pcreg with
  | .ok i => if i.inRange s.cfg then .run i s else .settled (.refused .pcUnreachable)
  | .rejected e => .settled (.refused (.undecodable e))

/-- A host access (R250, R251, R260). A legal `CTRL` word is a command; a reserved one, a write that is not 32 bits wide at
a multiple of 4, and a write that is refused set `WERR` only. -/
def fetchHost (a : HostAccess) (s : State) : Fetched :=
  match a with
  | .read offset width => .settled (.next (s.hostRead offset width))
  | .write offset width v =>
    if accessLegal offset width then
      match windowReg s.cfg offset with
      | .ctrl =>
        match decode .H v with
        | .ok i => .run i s
        | .rejected _ => .settled (.next s.refuseWrite)
      | reg => .settled (.next (s.hostWriteData reg v))
    else .settled (.next s.refuseWrite)

/-- The format of the words a function unit is named by. -/
def UnitKind.format : UnitKind → Format
  | .primitive => .P
  | .mergeSelector => .mergeSelector
  | .mathSelector => .mathSelector

/-- The call the sequencer has in hand (log entry 12): its word is decoded as the unit's format. -/
def fetchCall (call : Call) (s : State) : Fetched :=
  match decode call.kind.format call.word with
  | .ok i => .run i s
  | .rejected e => .settled (.refused (.undecodable e))

/-- The sequencer's turn: the micro-operation in `PC`. A call in hand, which no step leaves behind, comes first and is used
up. -/
def fetchSequencer (s : State) : Fetched :=
  match s.call with
  | none => fetchPc s
  | some call => fetchCall call { s with call := none }

/-- The next step: the oldest pending input, or the sequencer where nothing is pending (log entry 9). A configuration that is
not well-formed has no meaning (R9, U6). -/
def fetch (s : State) : Fetched :=
  if s.cfg.wf then
    match s.env with
    | [] => fetchSequencer s
    | e :: rest =>
      let s := { s with env := rest }
      match e with
      | .sequencer => fetchSequencer s
      | .host a => fetchHost a s
      | .answer => .settled (.next s.takeAnswer)
      | .staleAnswer => .settled (.next s)
      | .dataset d =>
        if s.st = .busy then .settled (.refused .datasetChangedWhileBusy)
        else .settled (.next { s with dataset := d })
      | .reset => .settled (.next s.resetInput)
  else .settled (.refused .illFormedConfig)

/-- The word of the opcode table placed where the next step takes it from (log entries 14 and 21): a format S word in
`PC` with the sequencer to act, a format H word as a host write to `CTRL`, a format P or selector word as a call in the
sequencer's hand, which stands for the micro-operation that calls it. -/
def placeWord (s : State) (nbits w : Nat) : State :=
  let x := BitVec.ofNat 32 w
  let turn := if s.env = [] then [] else .sequencer :: s.env
  match tableFormat nbits x with
  | .S => { s with pc := ⟨opField x, roundField x, idxField x⟩, env := turn, call := none }
  | .P => { s with env := turn, call := some ⟨.primitive, x⟩ }
  | .H => { s with env := .host (.write 0#32 32 x) :: s.env }
  | .mergeSelector => { s with env := turn, call := some ⟨.mergeSelector, x⟩ }
  | .mathSelector => { s with env := turn, call := some ⟨.mathSelector, x⟩ }

end Sys2Proof.Machine
end

