-- ==== Sys2Proof/Machine/Step.lean ====
section
/-! DEFINITION. One step of the machine: one agent acts, once, atomically (spec/00_scope.md R5, R6). -/

namespace Sys2Proof.Machine

/-- What a fetched step answers: the meaning of its instruction, or the outcome that needs none. -/
def Fetched.outcome : Fetched → Host.Outcome State Fault Refusal
  | .run i s => exec i s
  | .settled o => o

/-- One step: what `fetch` answers, run. -/
def step (s : State) : Host.Outcome State Fault Refusal := (fetch s).outcome

/-- `s` with one instruction of the opcode table placed where the next step takes it from, so that the next step runs
exactly it. -/
def State.withFetchWord (s : State) (nbits w : Nat) : State := placeWord s nbits w

end Sys2Proof.Machine
end

