-- ==== Sys2Proof/Machine/Trace.lean ====
section
/-! DEFINITION. Runs written down: the mnemonics and the written notation of spec/30_encoding.md R99, the pseudo-operations
of R100 as the lists of micro-operations they expand to, and the number of steps of a run (spec/45_pipeline.md R218). None of
this is machine state; the machine itself follows `Sequence.lean`. -/

namespace Sys2Proof.Machine

/-- The mnemonic of the opcode table. -/
def mnemonic : Instr → String
  | .idle => "IDLE"
  | .mixseed => "MIXSEED"
  | .laneseed _ => "LANESEED"
  | .lanefill _ => "LANEFILL"
  | .epoch => "EPOCH"
  | .schseed => "SCHSEED"
  | .fyswap _ => "FYSWAP"
  | .itemsel _ => "ITEMSEL"
  | .lookup _ => "LOOKUP"
  | .cacheop _ _ => "CACHEOP"
  | .mathop _ _ => "MATHOP"
  | .dagplan _ _ => "DAGPLAN"
  | .dagmerge _ _ => "DAGMERGE"
  | .lanehash _ => "LANEHASH"
  | .digfold _ => "DIGFOLD"
  | .serial => "SERIAL"
  | .halt => "HALT"
  | .fault => "FAULT"
  | .fnv1a => "FNV1A"
  | .kseed => "KSEED"
  | .knext => "KNEXT"
  | .nsrc => "NSRC"
  | .ndst => "NDST"
  | .merge => "MERGE"
  | .math => "MATH"
  | .nop => "NOP"
  | .start => "START"
  | .abort => "ABORT"
  | .mergeRow0 _ => "MERGE.0"
  | .mergeRow1 _ => "MERGE.1"
  | .mergeRow2 _ => "MERGE.2"
  | .mergeRow3 _ => "MERGE.3"
  | .mathRow0 _ => "MATH.0"
  | .mathRow1 _ => "MATH.1"
  | .mathRow2 _ => "MATH.2"
  | .mathRow3 _ => "MATH.3"
  | .mathRow4 _ => "MATH.4"
  | .mathRow5 _ => "MATH.5"
  | .mathRow6 _ => "MATH.6"
  | .mathRow7 _ => "MATH.7"
  | .mathRow8 _ => "MATH.8"
  | .mathRow9 _ => "MATH.9"
  | .mathRow10 _ => "MATH.10"

/-- The written form of a micro-operation: the mnemonic and the fields it uses, the round first (R99). -/
def written (i : Instr) : String :=
  match i with
  | .laneseed n | .lanefill n | .fyswap n | .lanehash n | .digfold n => mnemonic i ++ " " ++ Nat.repr n.toNat
  | .itemsel r | .lookup r => mnemonic i ++ " " ++ Nat.repr r.toNat
  | .cacheop r n | .mathop r n | .dagplan r n | .dagmerge r n =>
    mnemonic i ++ " " ++ Nat.repr r.toNat ++ ", " ++ Nat.repr n.toNat
  | _ => mnemonic i

/-! ### Pseudo-operations (R100) -/

/-- `INITMIX`. -/
def traceInitmix (c : Cfg) : List Instr :=
  .mixseed :: (List.range c.numLanes).flatMap fun l => [.laneseed (BitVec.ofNat 16 l), .lanefill (BitVec.ofNat 16 l)]

/-- `SCHEDINIT`: the bounds run from `numRegs` down to 2. -/
def traceSchedinit (c : Cfg) : List Instr :=
  [.epoch, .schseed] ++ (List.range (c.numRegs - 1)).map fun n => .fyswap (BitVec.ofNat 16 (c.numRegs - n))

/-- Step 2 of a round (R183): in iteration `i` the cache operation first, then the math operation, each while its own count
lasts. -/
def traceBody (c : Cfg) (r : Nat) : List Instr :=
  (List.range (max c.numCacheAccesses c.numMathOperations)).flatMap fun i =>
    (if i < c.numCacheAccesses then [.cacheop (BitVec.ofNat 8 r) (BitVec.ofNat 16 i)] else []) ++
      (if i < c.numMathOperations then [.mathop (BitVec.ofNat 8 r) (BitVec.ofNat 16 i)] else [])

/-- `ROUND r`, where the item of the round gives `wpl` words per lane. -/
def traceRound (c : Cfg) (wpl : Nat) (r : Nat) : List Instr :=
  [.itemsel (BitVec.ofNat 8 r), .lookup (BitVec.ofNat 8 r)] ++ traceBody c r ++
    (List.range wpl).map (fun i => .dagplan (BitVec.ofNat 8 r) (BitVec.ofNat 16 i)) ++
    (List.range wpl).map (fun i => .dagmerge (BitVec.ofNat 8 r) (BitVec.ofNat 16 i))

/-- `REDUCE`. -/
def traceReduce (c : Cfg) : List Instr :=
  (List.range c.numLanes).map (fun l => .lanehash (BitVec.ofNat 16 l)) ++
    (List.range c.numLanes).map (fun l => .digfold (BitVec.ofNat 16 l)) ++ [.serial]

/-- `HASHMIX` (R100, R210): 64 rounds, `wpls r` the words per lane of round `r`. -/
def traceHashmix (c : Cfg) (wpls : Nat → Nat) : List Instr :=
  traceInitmix c ++ traceSchedinit c ++ (List.range 64).flatMap (fun r => traceRound c (wpls r) r) ++ traceReduce c ++
    [.halt]

/-- `WR64 X, v` for the pair of 32-bit registers at `lowOffset` and `lowOffset + 4` (R100): the low half first. -/
def traceWr64 (lowOffset : Word) (v : U64) : List Event :=
  [.host (.write lowOffset 32 (lo32 v)), .host (.write (lowOffset + 4#32) 32 (hi32 v))]

/-- R218: the number of `PC` values from `(MIXSEED, 0, 0)` to `(HALT, 0, 0)` inclusive. -/
def runLength (c : Cfg) (wpls : Nat → Nat) : Nat :=
  1 + 2 * c.numLanes + 2 + (c.numRegs - 1) +
    ((List.range 64).map fun r => 2 + c.numCacheAccesses + c.numMathOperations + 2 * wpls r).sum +
    2 * c.numLanes + 1 + 1

end Sys2Proof.Machine
end

