-- ==== Sys2Proof/Safety.lean ====
section
/-! DEFINITION. What the statements call a good state and a safe step. `State.Inv` collects the bounds the spec sets for
each element (spec/10_state.md), the agreement of `ST` with `PC`, and what is true of the schedule and of the inputs while a
computation runs. -/

namespace Sys2Proof.Machine

/-- The lengths and bounds of the core elements (R21, R27, R31, R32, R33); those of `DIG` and `DIGBYTES` are in their
types. -/
abbrev Core.Shape (c : Cfg) (k : Core) : Prop :=
  k.mix.length = c.numLanes ∧ (∀ row ∈ k.mix, row.length = c.numRegs) ∧
  k.dstSeq.length = c.numRegs ∧ (∀ x ∈ k.dstSeq, x < c.numRegs) ∧
  k.srcSeq.length = c.numRegs ∧ (∀ x ∈ k.srcSeq, x < c.numRegs) ∧
  k.item.length = k.itemLen ∧ k.itemLen ≤ c.itemMax ∧ k.wpl = k.itemLen / c.numLanes ∧
  k.pdst.length = c.itemMax / c.numLanes ∧ (∀ x ∈ k.pdst, x < c.numRegs) ∧
  k.psel.length = c.itemMax / c.numLanes ∧ k.laneHash.length = c.numLanes

/-- Both permutation files are bijections on the register numbers (R28, R153). -/
abbrev Core.Permutations (c : Cfg) (k : Core) : Prop :=
  k.dstSeq.Perm (List.range c.numRegs) ∧ k.srcSeq.Perm (List.range c.numRegs)

/-- The memory of `CACHE` is canonical and lies inside its window (R37, R60, R250). -/
abbrev State.CacheInWindow (s : State) : Prop :=
  Memory.wf s.cache = true ∧ ∀ cell ∈ s.cache, cacheBase ≤ cell.1 ∧ cell.1 < cacheAddr s.cfg.cacheSize

/-- An entry number of the dataset merge is below `WPL` (R32, R187, R188). -/
def Instr.entryBelow (wpl : Nat) : Instr → Bool
  | .dagplan _ i | .dagmerge _ i => decide (i.toNat < wpl)
  | _ => true

/-- `PC` holds a micro-operation of a running computation, at a position the successor function produces (R41). -/
def State.atWork (s : State) : Bool :=
  decide (0x01 ≤ s.pc.op.toNat) && decide (s.pc.op.toNat ≤ 0x0F) &&
    match decode .S s.pcreg with
    | .ok i => i.inRange s.cfg && Instr.entryBelow s.core.wpl i
    | .rejected _ => false

/-- `ST` and `PC` agree (R42, R215, R216, R217): IDLE, DONE and ERROR stand at their resting micro-operations, BUSY at a
micro-operation of a computation. -/
abbrev State.PcFitsSt (s : State) : Prop :=
  (s.st = .idle → s.pc = ⟨0x00#8, 0#8, 0#16⟩) ∧ (s.st = .busy → s.atWork = true) ∧
  (s.st = .done → s.pc = ⟨0x10#8, 0#8, 0#16⟩) ∧ (s.st = .error → s.pc = ⟨0x11#8, 0#8, 0#16⟩)

/-- An answer is held only by the LOOKUP that asked for it, and it is the dataset's (R45, R71, R73). -/
abbrev State.AnswerFits (s : State) : Prop :=
  s.resp = none ∨ (s.st = .busy ∧ s.pc.op = 0x08#8 ∧ s.resp = some (s.dataset.lookup s.core.itemIdx))

/-- `ERRCODE` is 0 to 3 and not 0 exactly in ERROR; `ERRINFO` is 0 elsewhere (R43, R270, R272, R274). -/
abbrev State.ErrorFits (s : State) : Prop :=
  s.errcode.toNat ≤ 3 ∧ (s.st = .error ↔ s.errcode ≠ 0#4) ∧ (s.st ≠ .error → s.errinfo = 0#32)

/-- The bounds of the spec on a state, kept by every step. That no call is in hand is R90: a primitive is never issued by
itself. -/
abbrev State.Inv (s : State) : Prop :=
  s.cfg.wf = true ∧ s.core.Shape s.cfg ∧ s.CacheInWindow ∧ s.PcFitsSt ∧ s.AnswerFits ∧ s.ErrorFits ∧
  (s.st = .busy → s.inputsHeld = true) ∧ s.call = none ∧
  (0x06 ≤ s.pc.op.toNat → s.pc.op.toNat ≤ 0x10 → s.core.Permutations s.cfg)

/-- A step that does not stop the machine: it answers a next state, or it refuses an input that the spec puts outside the
contract: START without its inputs (R47), a change of the dataset during a computation (R71). -/
def SafeOutcome (o : Result) : Prop :=
  match o with
  | .next _ => True
  | .fault _ => False
  | .refused r => r = .startWithoutInputs ∨ r = .datasetChangedWhileBusy

/-- The block has finished a computation (R215). -/
def State.Finished (s : State) : Prop := s.pc.op = 0x10#8 ∧ s.st = .done

/-- The schedule: generator, permutation files, cursors (R13, R162). -/
def Core.schedule (k : Core) : Kiss × List Nat × List Nat × Word × Word :=
  (k.gs, k.dstSeq, k.srcSeq, k.dstCnt, k.srcCnt)

/-- What the words per lane of a round, `wpls r`, mean for the state in which a micro-operation of that round runs: LOOKUP
meets an answer of that many words per lane, the later ones find it in `WPL` (R182, R211). -/
def Instr.meetsShare (wpls : Nat → Nat) (i : Instr) (s : State) : Prop :=
  match i with
  | .lookup r => ∃ words, s.resp = some (.ok words) ∧ words.length ≤ s.cfg.itemMax ∧
      words.length / s.cfg.numLanes = wpls r.toNat
  | .cacheop r _ | .mathop r _ | .dagplan r _ | .dagmerge r _ => s.core.wpl = wpls r.toNat
  | _ => True

/-- A host write to `CTRL` of the word of START (R257). -/
def Event.isStart (e : Event) : Bool := e == .host (.write 0#32 32 1#32)

/-- A host write to `CTRL` of the word of ABORT (R258). -/
def Event.isAbort (e : Event) : Bool := e == .host (.write 0#32 32 2#32)

end Sys2Proof.Machine
end

