-- ==== Sys2Proof/Certificates/Slice0/Obligations.lean ====
section
/-! DEFINITION. The statements for the provers. Each is about every configuration: a state carries its own (log entry 1), and
no statement assumes a value of it that R9 does not give. Where a next state is given as `s` with some fields changed, that is
also its frame: every field and every core element that is not named is as before.

Three things these statements are written with are the model's, not the spec's: the queue `env` of pending inputs, whose order
the spec leaves free (log entry 9); the operand port `port` of a primitive and the call `call` in the sequencer's hand, which is
`none` wherever a step begins or ends (log entry 12); the field `resp` that holds an answer between its arrival and LOOKUP's
taking it (log entry 19). -/

open Sys2Proof Sys2Proof.Machine

/-! ### Encoding -/

/-- No bit of an encoding is dropped: every well-formed operation of every format reads back from its word. -/
def Obligations.DecodeInvertsEncode : Prop :=
  ∀ i : Instr, i.wf = true → decode i.format (encode i) = .ok i

/-- A word that a format admits is the word of the operation it decodes to, and that operation is well-formed. -/
def Obligations.EncodeInvertsDecode : Prop :=
  ∀ (f : Format) (w : Word) (i : Instr), decode f w = .ok i → i.format = f ∧ i.wf = true ∧ encode i = w

/-- Words written out in the spec (R99, R253) and from its tables (R92 to R94, R96). -/
def Obligations.WrittenWordsDecode : Prop :=
  decode .S 0x073F0000#32 = .ok (.itemsel 63#8) ∧ decode .S 0x09030001#32 = .ok (.cacheop 3#8 1#16) ∧
  decode .S 0x0A000000#32 = .ok (.mathop 0#8 0#16) ∧ decode .S 0x06000004#32 = .ok (.fyswap 4#16) ∧
  decode .S 0x03000001#32 = .ok (.lanefill 1#16) ∧ decode .S 0x0F000000#32 = .ok .serial ∧
  decode .S 0x08050000#32 = .ok (.lookup 5#8) ∧ decode .P 0x22000000#32 = .ok .knext ∧
  decode .H 0x00000001#32 = .ok .start ∧ decode .mergeSelector 0xB0687635#32 = .ok (.mergeRow1 0x2C1A1D8D#30) ∧
  decode .mathSelector 0x9309667E#32 = .ok (.mathRow5 224260619)

/-- R91, R97, R41, R9 (U5, U6): a word is no micro-operation exactly when its code is unassigned or a primitive's, a field its
code does not use is not zero, or its round is above 63. The machine refuses every such word in `PC`, as it refuses a
position the successor function cannot produce and a configuration that is not well-formed; a reserved `CTRL` word changes
nothing but `WERR`. -/
def Obligations.ReservedWordsRejected : Prop :=
  (∀ w : Word, let op := w.toNat / 2 ^ 24
    let r := w.toNat / 2 ^ 16 % 2 ^ 8
    let idx := w.toNat % 2 ^ 16
    (∃ e, decode .S w = .rejected e) ↔
      0x12 ≤ op ∨ (op ∈ [0x00, 0x01, 0x04, 0x05, 0x0F, 0x10, 0x11] ∧ (r ≠ 0 ∨ idx ≠ 0)) ∨
        (op ∈ [0x02, 0x03, 0x06, 0x0D, 0x0E] ∧ r ≠ 0) ∨ (op ∈ [0x07, 0x08] ∧ (63 < r ∨ idx ≠ 0)) ∨
        (op ∈ [0x09, 0x0A, 0x0B, 0x0C] ∧ 63 < r)) ∧
  (∀ (s : State) (e : DecodeError), s.cfg.wf = true → s.env = [] → s.call = none → decode .S s.pcreg = .rejected e →
    step s = .refused (.undecodable e)) ∧
  (∀ (s : State) (i : Instr), s.cfg.wf = true → s.env = [] → s.call = none → decode .S s.pcreg = .ok i →
    i.inRange s.cfg = false → step s = .refused .pcUnreachable) ∧
  (∀ s : State, s.cfg.wf = false → step s = .refused .illFormedConfig) ∧
  (∀ (s : State) (w : Word) (rest : List Event), s.cfg.wf = true → s.env = .host (.write 0#32 32 w) :: rest →
    3 ≤ w.toNat → step s = .next { s with env := rest, werr := true })

/-! ### The step -/

/-- A step runs the instruction that is decoded where the agent that acts finds its word: the sequencer at `PC`, whether
nothing is pending or its turn is, the host's command on `CTRL`, and a call in the sequencer's hand, which stands for the
micro-operation that calls (log entry 12). -/
def Obligations.StepRunsDecodedInstruction : Prop :=
  ∀ (s : State) (i : Instr), s.cfg.wf = true →
    (s.env = [] → s.call = none → decode .S s.pcreg = .ok i → i.inRange s.cfg = true → step s = exec i s) ∧
    (∀ rest, s.env = .sequencer :: rest → s.call = none → decode .S s.pcreg = .ok i → i.inRange s.cfg = true →
      step s = exec i { s with env := rest }) ∧
    (∀ w rest, s.env = .host (.write 0#32 32 w) :: rest → decode .H w = .ok i → step s = exec i { s with env := rest }) ∧
    (∀ call, s.env = [] → s.call = some call → decode call.kind.format call.word = .ok i →
      step s = exec i { s with call := none }) ∧
    (∀ call rest, s.env = .sequencer :: rest → s.call = some call → decode call.kind.format call.word = .ok i →
      step s = exec i { s with env := rest, call := none })

/-! ### The invariant -/

/-- From every state that meets the invariant, a step that answers a next state answers one that meets it: the lengths and
bounds of R21 to R35, the canonical memory inside its window, the agreement of `ST` and `PC` (R42, R41), the answer held
(R45), the error registers (R43), the inputs of a running computation (R47), the two permutations (R28), no call left in hand
(R90). -/
def Obligations.StepKeepsInvariant : Prop :=
  ∀ s t : State, s.Inv → step s = .next t → t.Inv

/-- Reset meets the invariant, for every well-formed configuration. -/
def Obligations.ResetMeetsInvariant : Prop :=
  (∀ c : Cfg, c.wf = true → (State.resetWith c).Inv) ∧ State.reset.Inv

/-- R281, R270: on a well-formed configuration every micro-operation the sequencer reaches completes; no step of a good state
faults, and it refuses only what the spec puts outside the contract (R47, R71). -/
def Obligations.StepIsSafe : Prop :=
  ∀ s : State, s.Inv → SafeOutcome (step s) ∧ (s.env = [] → ∃ t, step s = .next t)

/-- R211: every loop is counted, so a computation whose lookups are answered ends. Some measure of the position and `WPL`, for
the configuration, falls with every micro-operation of a running computation that is not waiting for an answer, and no step
of a computation that goes on raises it: neither an answer nor a host access nor any other input. -/
def Obligations.ComputationIsFinite : Prop :=
  ∃ m : Cfg → Pc → Nat → Nat, ∀ s : State, s.Inv → s.st = .busy →
    (s.lookupOutstanding = false → (s.env = [] ∨ ∃ rest, s.env = .sequencer :: rest) →
      ∃ t, step s = .next t ∧ m t.cfg t.pc t.core.wpl < m s.cfg s.pc s.core.wpl) ∧
    ∀ t, step s = .next t → t.st = .busy → m t.cfg t.pc t.core.wpl ≤ m s.cfg s.pc s.core.wpl

/-- R215, R314: from every point of a running computation, if every lookup is answered with an item that fits the buffer,
some turns of the sequencer and the responder alone lead to the finished state, with `PC` at HALT and `ST` DONE. -/
def Obligations.AnsweredRunReachesHalt : Prop :=
  ∀ s : State, s.Inv → s.st = .busy →
    (∀ index, ∃ words, s.dataset.lookup index = .ok words ∧ words.length ≤ s.cfg.itemMax) →
    ∃ (turns : List Event) (t : State), (∀ e ∈ turns, e = .sequencer ∨ e = .answer) ∧
      Host.Core.run Sys2Proof.core turns.length { s with env := turns } = .next t ∧ t.Finished

/-- R219, R46: two computations that stand at their first micro-operation with the same configuration, seed, height, cache
and dataset go through the same positions, end in the same `ST` with the same error registers and give the same digest:
whatever the core state, the free values and the rest of the state held before, none of it is read. -/
def Obligations.DigestDependsOnInputsOnly : Prop :=
  ∀ (s s' t t' : State) (turns : List Event), s.Inv → s'.Inv → s.st = .busy → s'.st = .busy →
    s.pc = ⟨0x01#8, 0#8, 0#16⟩ → s'.pc = ⟨0x01#8, 0#8, 0#16⟩ →
    s'.cfg = s.cfg → s'.seed = s.seed → s'.height = s.height → s'.cache = s.cache → s'.dataset = s.dataset →
    (∀ e ∈ turns, e = .sequencer ∨ e = .answer) →
    Host.Core.run Sys2Proof.core turns.length { s with env := turns } = .next t →
    Host.Core.run Sys2Proof.core turns.length { s' with env := turns } = .next t' →
    t'.pc = t.pc ∧ t'.st = t.st ∧ t'.errcode = t.errcode ∧ t'.errinfo = t.errinfo ∧
      (t.st = .done → t'.core.dig = t.core.dig ∧ t'.core.digBytes = t.core.digBytes)

/-- R210, R211, R100: the microprogram of the machine is HASHMIX as it is written: of two micro-operations that follow each
other in the written run, the first, executed to its end, leaves `PC` at the word of the second. -/
def Obligations.WrittenRunFollowsSuccessor : Prop :=
  ∀ (c : Cfg) (wpls : Nat → Nat), c.wf = true → (∀ r, wpls r ≤ c.itemMax / c.numLanes) →
    (traceHashmix c wpls).IsChain fun i j =>
      ∀ s t : State, s.cfg = c → Instr.meetsShare wpls i s → exec i s = .next t → t.pcreg = encode j

/-- R218: the number of micro-operations of a run, and its value for configuration T. -/
def Obligations.WrittenRunHasStatedLength : Prop :=
  (∀ (c : Cfg) (wpls : Nat → Nat), (traceHashmix c wpls).length =
    1 + 2 * c.numLanes + 2 + (c.numRegs - 1) +
      ((List.range 64).map fun r => 2 + c.numCacheAccesses + c.numMathOperations + 2 * wpls r).sum +
      2 * c.numLanes + 1 + 1) ∧
  ∀ c : Cfg, c.numLanes = 2 → c.numRegs = 4 → c.numCacheAccesses = 2 → c.numMathOperations = 2 →
    runLength c (fun _ => 8) = 1424

/-! ### FNV1A and KISS99 -/

/-- R121: exclusive or, then the product modulo `2^32`; the function unit changes nothing but its result. Where the operands and
the result stand, and that the call is a step, is the model's choice (log entry 12). -/
def Obligations.Fnv1aXorsThenMultiplies : Prop :=
  encode .fnv1a = 0x20000000#32 ∧
  ∀ s : State, exec .fnv1a s = .next { s with port := { s.port with
    result := BitVec.ofNat 32 ((s.port.a.toNat ^^^ s.port.b.toNat) * s.cfg.fnvPrime.toNat) } }

/-- R124: for an odd prime the step is a bijection in each of its arguments. -/
def Obligations.Fnv1aIsBijective : Prop :=
  ∀ c : Cfg, c.fnvPrime.toNat % 2 = 1 →
    (∀ h, Function.Bijective fun d => fnv1a c h d) ∧ ∀ d, Function.Bijective fun h => fnv1a c h d

/-- R131: the four seed words are stored unchanged in the generator that is constructed, and in no other. Where the operands stand
is the model's choice (log entry 12). -/
def Obligations.KseedStoresSeedWords : Prop :=
  encode .kseed = 0x21000000#32 ∧
  ∀ s : State,
    (s.port.gen = .gs → exec .kseed s = .next { s with core := { s.core with
      gs := ⟨s.port.a, s.port.b, s.port.c, s.port.d⟩ } }) ∧
    (s.port.gen = .gl → exec .kseed s = .next { s with core := { s.core with
      gl := ⟨s.port.a, s.port.b, s.port.c, s.port.d⟩ } })

/-- R136, R137: one draw changes all four words of its generator and nothing of the other, and returns the word combined
from the updated words. Which generator is meant and where the result stands is the model's choice (log entry 12). -/
def Obligations.KnextDrawsFromItsGenerator : Prop :=
  encode .knext = 0x22000000#32 ∧
  ∀ s : State,
    (s.port.gen = .gs → exec .knext s = .next { s with
      core := { s.core with gs := kissAdvance s.cfg s.core.gs }
      port := { s.port with result := kissOut (kissAdvance s.cfg s.core.gs) } }) ∧
    (s.port.gen = .gl → exec .knext s = .next { s with
      core := { s.core with gl := kissAdvance s.cfg s.core.gl }
      port := { s.port with result := kissOut (kissAdvance s.cfg s.core.gl) } })

/-- R132 to R135, in numbers: the multiply-with-carry words, the linear congruential word and the output are sums and
products modulo `2^32`, the xorshift word three exclusive ors of shifted words; the output is taken from the updated words.
With the multipliers R132 names no wrap occurs in the multiply-with-carry lane. The formulas of R132, R133 and R135 are the spec's own choice, its decision D4. -/
def Obligations.KissLanesInNumbers : Prop :=
  (∀ (c : Cfg) (g : Kiss),
    (kissAdvance c g).z.toNat = (c.kissMz.toNat * (g.z.toNat % 65536) + g.z.toNat / 65536) % 2 ^ 32 ∧
    (kissAdvance c g).w.toNat = (c.kissMw.toNat * (g.w.toNat % 65536) + g.w.toNat / 65536) % 2 ^ 32 ∧
    (kissAdvance c g).jcong.toNat = (c.kissA.toNat * g.jcong.toNat + c.kissC.toNat) % 2 ^ 32 ∧
    (let t1 := g.jsr.toNat ^^^ (g.jsr.toNat * 2 ^ 17 % 2 ^ 32)
     let t2 := t1 ^^^ (t1 / 2 ^ 13)
     (kissAdvance c g).jsr.toNat = t2 ^^^ (t2 * 2 ^ 5 % 2 ^ 32)) ∧
    (kissNext c g).2 = kissAdvance c g ∧
    (let g' := kissAdvance c g
     (kissNext c g).1.toNat =
      ((((g'.z.toNat * 2 ^ 16 + g'.w.toNat) % 2 ^ 32) ^^^ g'.jcong.toNat) + g'.jsr.toNat) % 2 ^ 32)) ∧
  ∀ v : Word, (mwc v 36969#32).toNat = 36969 * (v.toNat % 65536) + v.toNat / 65536 ∧
    (mwc v 18000#32).toNat = 18000 * (v.toNat % 65536) + v.toNat / 65536

/-- R138: a word `jsr`, `z` or `w` that is zero stays zero under any number of draws. -/
def Obligations.DegenerateWordsStayZero : Prop :=
  ∀ (c : Cfg) (g : Kiss) (n : Nat),
    (g.jsr = 0#32 → ((kissAdvance c)^[n] g).jsr = 0#32) ∧
    (g.z = 0#32 → ((kissAdvance c)^[n] g).z = 0#32) ∧ (g.w = 0#32 → ((kissAdvance c)^[n] g).w = 0#32)

/-! ### Filling the lanes -/

/-- R170, R68: the low half of the seed is folded into `ZB`, the high half on top of it into `WB`. The start value and the
order of the halves are the spec's own choice, its decision D5. -/
def Obligations.MixseedFoldsSeedHalves : Prop :=
  encode .mixseed = 0x01000000#32 ∧
  ∀ s : State, exec .mixseed s = .next { s with
    core := { s.core with
      zb := fnv1a s.cfg s.cfg.fnvOffsetBasis (BitVec.ofNat 32 (s.seed.toNat % 2 ^ 32))
      wb := fnv1a s.cfg (fnv1a s.cfg s.cfg.fnvOffsetBasis (BitVec.ofNat 32 (s.seed.toNat % 2 ^ 32)))
        (BitVec.ofNat 32 (s.seed.toNat / 2 ^ 32)) }
    pc := ⟨0x02#8, 0#8, 0#16⟩ }

/-- R171: `GL` is built afresh from `ZB`, `WB` and the lane number. -/
def Obligations.LaneseedBuildsFreshGenerator : Prop :=
  ∀ (s : State) (l : BitVec 16), encode (.laneseed l) = 0x02000000#32 ||| l.setWidth 32 ∧
    exec (.laneseed l) s = .next { s with
      core := { s.core with gl :=
        ⟨s.core.zb, s.core.wb, fnv1a s.cfg s.core.wb (l.setWidth 32),
          fnv1a s.cfg (fnv1a s.cfg s.core.wb (l.setWidth 32)) (l.setWidth 32)⟩ }
      pc := ⟨0x03#8, 0#8, l⟩ }

/-- R172: register `k` of the lane is the draw number `k + 1` from `GL`, exactly `numRegs` draws are made, and no other lane
is touched. -/
def Obligations.LanefillDrawsOneRow : Prop :=
  ∀ (s : State) (l : BitVec 16), encode (.lanefill l) = 0x03000000#32 ||| l.setWidth 32 ∧
    (l.toNat < s.core.mix.length →
      ∃ mix, exec (.lanefill l) s = .next { s with
          core := { s.core with mix := mix, gl := (kissAdvance s.cfg)^[s.cfg.numRegs] s.core.gl }
          pc := if l.toNat + 1 < s.cfg.numLanes then ⟨0x02#8, 0#8, BitVec.ofNat 16 (l.toNat + 1)⟩
            else ⟨0x04#8, 0#8, 0#16⟩ } ∧
        mix.length = s.core.mix.length ∧ (mix.getD l.toNat []).length = s.cfg.numRegs ∧
        (∀ k, k < s.cfg.numRegs → mixReg mix l.toNat k = kissOut ((kissAdvance s.cfg)^[k + 1] s.core.gl)) ∧
        ∀ l', l' ≠ l.toNat → mix.getD l' [] = s.core.mix.getD l' [])

/-- R173: after INITMIX the content of lane `l` is a function of the seed, `l` and the configuration only: register `k` is
draw `k + 1` of the generator seeded from the folded seed halves and the lane number. -/
def Obligations.InitmixFillsEveryLaneFromSeed : Prop :=
  ∀ s : State, s.cfg.wf = true → s.env = [] → s.call = none → s.pc = ⟨0x01#8, 0#8, 0#16⟩ →
    s.core.mix.length = s.cfg.numLanes →
    ∃ t, Host.Core.run Sys2Proof.core (1 + 2 * s.cfg.numLanes) s = .next t ∧ t.pc = ⟨0x04#8, 0#8, 0#16⟩ ∧
      let z := fnv1a s.cfg s.cfg.fnvOffsetBasis (lo32 s.seed)
      let w := fnv1a s.cfg z (hi32 s.seed)
      ∀ l k, l < s.cfg.numLanes → k < s.cfg.numRegs →
        mixReg t.core.mix l k = kissOut ((kissAdvance s.cfg)^[k + 1] (laneSeed s.cfg z w l))

/-! ### The register schedule -/

/-- R150: unsigned truncating division of the height. -/
def Obligations.EpochDividesHeight : Prop :=
  encode .epoch = 0x04000000#32 ∧
  ∀ s : State, ∃ e : U64, e.toNat = s.height.toNat / s.cfg.periodLength ∧
    exec .epoch s = .next { s with core := { s.core with epoch := e }, pc := ⟨0x05#8, 0#8, 0#16⟩ }

/-- R151: the two halves of the epoch folded twice seed `GS`; both files are the identity and both cursors zero. The
chain of folds is the spec's own reading, its decisions D5 and D6. -/
def Obligations.SchseedConstructsSchedule : Prop :=
  encode .schseed = 0x05000000#32 ∧
  ∀ s : State,
    let lo := BitVec.ofNat 32 (s.core.epoch.toNat % 2 ^ 32)
    let hi := BitVec.ofNat 32 (s.core.epoch.toNat / 2 ^ 32)
    let z := fnv1a s.cfg s.cfg.fnvOffsetBasis lo
    let w := fnv1a s.cfg z hi
    let jsr := fnv1a s.cfg w lo
    let jcong := fnv1a s.cfg jsr hi
    exec .schseed s = .next { s with
      core := { s.core with
        gs := ⟨z, w, jsr, jcong⟩
        dstSeq := List.range s.cfg.numRegs
        srcSeq := List.range s.cfg.numRegs
        dstCnt := 0#32
        srcCnt := 0#32 }
      pc := ⟨0x06#8, 0#8, BitVec.ofNat 16 s.cfg.numRegs⟩ }

/-- R152: the first draw picks the entry exchanged with entry `i - 1` in the destination file, the second draw the one in the
source file; no other entry moves. -/
def Obligations.FyswapExchangesTwoEntries : Prop :=
  ∀ (s : State) (i : BitVec 16), encode (.fyswap i) = 0x06000000#32 ||| i.setWidth 32 ∧
    (2 ≤ i.toNat → i.toNat ≤ s.cfg.numRegs → s.core.dstSeq.length = s.cfg.numRegs →
      s.core.srcSeq.length = s.cfg.numRegs →
      let g1 := kissAdvance s.cfg s.core.gs
      let g2 := kissAdvance s.cfg g1
      let j := (kissOut g1).toNat % i.toNat
      let k := (kissOut g2).toNat % i.toNat
      ∃ dst src, exec (.fyswap i) s = .next { s with
          core := { s.core with gs := g2, dstSeq := dst, srcSeq := src }
          pc := if 2 < i.toNat then ⟨0x06#8, 0#8, BitVec.ofNat 16 (i.toNat - 1)⟩ else ⟨0x07#8, 0#8, 0#16⟩ } ∧
        dst.length = s.cfg.numRegs ∧ src.length = s.cfg.numRegs ∧
        (∀ n, dst.getD n 0 = if n = j then s.core.dstSeq.getD (i.toNat - 1) 0
          else if n = i.toNat - 1 then s.core.dstSeq.getD j 0 else s.core.dstSeq.getD n 0) ∧
        ∀ n, src.getD n 0 = if n = k then s.core.srcSeq.getD (i.toNat - 1) 0
          else if n = i.toNat - 1 then s.core.srcSeq.getD k 0 else s.core.srcSeq.getD n 0)

/-- R28, R153: SCHSEED writes bijections and FYSWAP keeps them. -/
def Obligations.ScheduleFilesStayPermutations : Prop :=
  (∀ s t : State, exec .schseed s = .next t → t.core.Permutations s.cfg) ∧
  ∀ (s t : State) (i : BitVec 16), 2 ≤ i.toNat → i.toNat ≤ s.cfg.numRegs → s.core.Permutations s.cfg →
    exec (.fyswap i) s = .next t → t.core.Permutations s.cfg

/-- R154: two heights of one epoch give the same schedule, whatever the seed, the cache, the dataset and the rest of the state
are. -/
def Obligations.ScheduleDependsOnEpochOnly : Prop :=
  ∀ s s' : State, s.cfg.wf = true → s'.cfg = s.cfg → s.env = [] → s'.env = [] → s.call = none → s'.call = none →
    s.pc = ⟨0x04#8, 0#8, 0#16⟩ → s'.pc = ⟨0x04#8, 0#8, 0#16⟩ →
    s.height.toNat / s.cfg.periodLength = s'.height.toNat / s.cfg.periodLength →
    ∃ t t', Host.Core.run Sys2Proof.core (s.cfg.numRegs + 1) s = .next t ∧
      Host.Core.run Sys2Proof.core (s.cfg.numRegs + 1) s' = .next t' ∧
      t.pc = ⟨0x07#8, 0#8, 0#16⟩ ∧ t'.pc = ⟨0x07#8, 0#8, 0#16⟩ ∧ t.core.schedule = t'.core.schedule

/-- R160, R161: the cursor moves first and wraps, then its own file is read at `cursor % numRegs`; the other cursor does not
move and nothing is drawn. Where the result stands is the model's choice (log entry 12). -/
def Obligations.CursorMovesBeforeFileIsRead : Prop :=
  encode .nsrc = 0x23000000#32 ∧ encode .ndst = 0x24000000#32 ∧
  ∀ s : State,
    exec .nsrc s = .next { s with
      core := { s.core with srcCnt := BitVec.ofNat 32 (s.core.srcCnt.toNat + 1) }
      port := { s.port with
        result := BitVec.ofNat 32 (s.core.srcSeq.getD ((s.core.srcCnt.toNat + 1) % 2 ^ 32 % s.cfg.numRegs) 0) } } ∧
    exec .ndst s = .next { s with
      core := { s.core with dstCnt := BitVec.ofNat 32 (s.core.dstCnt.toNat + 1) }
      port := { s.port with
        result := BitVec.ofNat 32 (s.core.dstSeq.getD ((s.core.dstCnt.toNat + 1) % 2 ^ 32 % s.cfg.numRegs) 0) } }

/-! ### The round -/

/-- R181: register 0 of lane `r % numLanes`, modulo half the cache size. -/
def Obligations.ItemselReducesRegisterZero : Prop :=
  ∀ (s : State) (r : BitVec 8), encode (.itemsel r) = 0x07000000#32 ||| (r.setWidth 32 <<< 16) ∧
    (s.cfg.wf = true → ∃ idx : Word,
      idx.toNat = (mixReg s.core.mix (r.toNat % s.cfg.numLanes) 0).toNat % (s.cfg.cacheSize / 2) ∧
      idx.toNat < s.cfg.cacheSize / 2 ∧
      exec (.itemsel r) s = .next { s with core := { s.core with itemIdx := idx }, pc := ⟨0x08#8, r, 0#16⟩ })

/-- R182, R31: an answer that fits the buffer is taken whole, and the successor is the body of the round with the new `WPL`;
with no answer the step holds and nothing changes. That an answer waits in `resp` is the model's choice (log entry 19). -/
def Obligations.LookupTakesAnsweredItem : Prop :=
  ∀ (s : State) (r : BitVec 8), encode (.lookup r) = 0x08000000#32 ||| (r.setWidth 32 <<< 16) ∧
    (s.resp = none → exec (.lookup r) s = .next s) ∧
    ∀ words : List Word, s.resp = some (.ok words) → words.length ≤ s.cfg.itemMax →
      exec (.lookup r) s = .next { s with
        resp := none
        core := { s.core with
          item := words
          itemLen := words.length
          wpl := words.length / s.cfg.numLanes }
        pc := seqBody s.cfg (words.length / s.cfg.numLanes) r 0 }

/-- R274, R272: a failed lookup, and an answer longer than the buffer, enter FAULT: `ST` is ERROR, `ERRCODE` the cause (a
reserved wire cause is recorded as 1), `ERRINFO` the index of the request. The inputs, the cache, `WERR` and the dataset are
unchanged. Nothing is said of the core state, which holds no value (log entry 5). -/
def Obligations.LookupFaultEntersFault : Prop :=
  ∀ (s : State) (r : BitVec 8),
    (∀ cause : BitVec 2, s.resp = some (.fail cause) → ∃ core n, exec (.lookup r) s = .next { s with
      core := core
      resp := none
      freeCount := n
      st := .error
      errcode := if cause = 2#2 then 2#4 else 1#4
      errinfo := s.core.itemIdx
      pc := ⟨0x11#8, 0#8, 0#16⟩ }) ∧
    ∀ words : List Word, s.resp = some (.ok words) → s.cfg.itemMax < words.length →
      ∃ core n, exec (.lookup r) s = .next { s with
        core := core
        resp := none
        freeCount := n
        st := .error
        errcode := 3#4
        errinfo := s.core.itemIdx
        pc := ⟨0x11#8, 0#8, 0#16⟩ }

/-- R73, R314, R70, R71: while no answer arrives the block stays at LOOKUP with no state changed, however long. An answer to the
outstanding request is the dataset's for its index; an answer with no request outstanding, and one to an abandoned
request, is discarded. The arrival of an answer as an input of its own is the model's choice (log entries 9, 19). -/
def Obligations.LookupWaitsForItsAnswer : Prop :=
  (∀ s : State, s.Inv → s.env = [] → s.lookupOutstanding = true →
    ∀ n, Host.Core.run Sys2Proof.core n s = .next s) ∧
  ∀ (s : State) (rest : List Event), s.cfg.wf = true →
    (s.env = .answer :: rest → s.st = .busy → s.pc.op = 0x08#8 → s.resp = none →
      step s = .next { s with env := rest, resp := some (s.dataset.lookup s.core.itemIdx) }) ∧
    (s.env = .answer :: rest → (s.st ≠ .busy ∨ s.pc.op ≠ 0x08#8 ∨ s.resp ≠ none) →
      step s = .next { s with env := rest }) ∧
    (s.env = .staleAnswer :: rest → step s = .next { s with env := rest })

/-- R184: `src`, `dst`, `sel` are drawn once, in this order; in every lane the cache word at the lane's own offset is merged
into register `dst`, from the lane's old values; every other register keeps its value. -/
def Obligations.CacheopMergesCacheWords : Prop :=
  ∀ (s : State) (r : BitVec 8) (i : BitVec 16),
    encode (.cacheop r i) = 0x09000000#32 ||| (r.setWidth 32 <<< 16) ||| i.setWidth 32 ∧
    (s.cfg.wf = true →
      let src := s.core.srcSeq.getD ((s.core.srcCnt + 1#32).toNat % s.cfg.numRegs) 0
      let dst := s.core.dstSeq.getD ((s.core.dstCnt + 1#32).toNat % s.cfg.numRegs) 0
      let sel := kissOut (kissAdvance s.cfg s.core.gs)
      ∃ mix, exec (.cacheop r i) s = .next { s with
          core := { s.core with
            mix := mix
            gs := kissAdvance s.cfg s.core.gs
            srcCnt := s.core.srcCnt + 1#32
            dstCnt := s.core.dstCnt + 1#32 }
          pc := if i.toNat < s.cfg.numMathOperations then ⟨0x0A#8, r, i⟩
            else seqBody s.cfg s.core.wpl r (i.toNat + 1) } ∧
        mix.length = s.core.mix.length ∧
        ∀ l, l < s.core.mix.length →
          (mix.getD l []).length = (s.core.mix.getD l []).length ∧
          ∀ k, k < (s.core.mix.getD l []).length →
            mixReg mix l k = if k = dst then
                applyMerge s.cfg (mixReg s.core.mix l dst)
                  (s.cacheWord ((mixReg s.core.mix l src).toNat % s.cfg.cacheWordCount)) sel
              else mixReg s.core.mix l k)

/-- R185, R186: three draws from `GS`, the first giving the two distinct sources, with one NDST; no NSRC; in every lane the
math result of the old source values is merged into register `dst`. -/
def Obligations.MathopMergesMathResults : Prop :=
  ∀ (s : State) (r : BitVec 8) (i : BitVec 16),
    let g1 := kissAdvance s.cfg s.core.gs
    let g2 := kissAdvance s.cfg g1
    let g3 := kissAdvance s.cfg g2
    let combined := (kissOut g1).toNat % (s.cfg.numRegs * (s.cfg.numRegs - 1))
    let src1 := combined % s.cfg.numRegs
    let src2 := if src1 ≤ combined / s.cfg.numRegs then combined / s.cfg.numRegs + 1 else combined / s.cfg.numRegs
    let dst := s.core.dstSeq.getD ((s.core.dstCnt + 1#32).toNat % s.cfg.numRegs) 0
    encode (.mathop r i) = 0x0A000000#32 ||| (r.setWidth 32 <<< 16) ||| i.setWidth 32 ∧
    ∃ mix, exec (.mathop r i) s = .next { s with
        core := { s.core with mix := mix, gs := g3, dstCnt := s.core.dstCnt + 1#32 }
        pc := seqBody s.cfg s.core.wpl r (i.toNat + 1) } ∧
      mix.length = s.core.mix.length ∧
      ∀ l, l < s.core.mix.length →
        (mix.getD l []).length = (s.core.mix.getD l []).length ∧
        ∀ k, k < (s.core.mix.getD l []).length →
          mixReg mix l k = if k = dst then
              applyMerge s.cfg (mixReg s.core.mix l dst)
                (applyMath s.cfg (mixReg s.core.mix l src1) (mixReg s.core.mix l src2) (kissOut g2)) (kissOut g3)
            else mixReg s.core.mix l k

/-- R186: the source pair of a draw; the two sources are distinct register numbers, and every ordered pair of distinct register
numbers comes from exactly one value of `combined`; R186 marks that as derived from its pseudocode. -/
def Obligations.SourcePairIsBijection : Prop :=
  ∀ c : Cfg, 2 ≤ c.numRegs → c.numRegs ≤ 65535 →
    (2 ≤ c.numRegs * (c.numRegs - 1) ∧ c.numRegs * (c.numRegs - 1) < 2 ^ 32) ∧
    (∀ draw,
      let combined := draw.toNat % (c.numRegs * (c.numRegs - 1))
      srcPair c draw = (combined % c.numRegs, if combined % c.numRegs ≤ combined / c.numRegs then combined / c.numRegs + 1
        else combined / c.numRegs)) ∧
    (∀ draw, (srcPair c draw).1 < c.numRegs ∧ (srcPair c draw).2 < c.numRegs ∧
      (srcPair c draw).1 ≠ (srcPair c draw).2) ∧
    ∀ a b, a < c.numRegs → b < c.numRegs → a ≠ b →
      ∃! m, m < c.numRegs * (c.numRegs - 1) ∧ srcPair c (BitVec.ofNat 32 m) = (a, b)

/-- R187: entry 0 is planned for register 0 and moves no cursor; every other entry takes the next destination; a selector is
drawn in both cases. -/
def Obligations.DagplanWritesOneEntry : Prop :=
  ∀ (s : State) (r : BitVec 8) (i : BitVec 16),
    encode (.dagplan r i) = 0x0B000000#32 ||| (r.setWidth 32 <<< 16) ||| i.setWidth 32 ∧
    (i = 0#16 → exec (.dagplan r i) s = .next { s with
      core := { s.core with
        gs := kissAdvance s.cfg s.core.gs
        pdst := s.core.pdst.set 0 0
        psel := s.core.psel.set 0 (kissOut (kissAdvance s.cfg s.core.gs)) }
      pc := seqPlan s.core.wpl r 1 }) ∧
    (i ≠ 0#16 → exec (.dagplan r i) s = .next { s with
      core := { s.core with
        gs := kissAdvance s.cfg s.core.gs
        dstCnt := s.core.dstCnt + 1#32
        pdst := s.core.pdst.set i.toNat
          (s.core.dstSeq.getD ((s.core.dstCnt + 1#32).toNat % s.cfg.numRegs) 0)
        psel := s.core.psel.set i.toNat (kissOut (kissAdvance s.cfg s.core.gs)) }
      pc := seqPlan s.core.wpl r (i.toNat + 1) })

/-- R188, R189: every lane merges its own word of the item into the planned register; nothing is drawn and no cursor
moves. -/
def Obligations.DagmergeMergesItemWords : Prop :=
  ∀ (s : State) (r : BitVec 8) (i : BitVec 16),
    encode (.dagmerge r i) = 0x0C000000#32 ||| (r.setWidth 32 <<< 16) ||| i.setWidth 32 ∧
    (1 ≤ s.cfg.numLanes → i.toNat < s.core.wpl →
      s.cfg.numLanes * s.core.wpl ≤ s.core.item.length → s.core.item.length ≤ s.cfg.itemMax →
      let dst := s.core.pdst.getD i.toNat 0
      let sel := s.core.psel.getD i.toNat 0#32
      ∃ mix, exec (.dagmerge r i) s = .next { s with
          core := { s.core with mix := mix }
          pc := seqDmerge s.core.wpl r (i.toNat + 1) } ∧
        mix.length = s.core.mix.length ∧
        ∀ l, l < s.core.mix.length →
          (mix.getD l []).length = (s.core.mix.getD l []).length ∧
          ∀ k, k < (s.core.mix.getD l []).length →
            mixReg mix l k = if k = dst then
                applyMerge s.cfg (mixReg s.core.mix l dst)
                  (s.core.item.getD (((l ^^^ r.toNat) % s.cfg.numLanes) * s.core.wpl + i.toNat) 0#32) sel
              else mixReg s.core.mix l k)

/-- R66, R189: the lane offset is the slice `(l ^ r) % numLanes` of the item; the index of a dataset merge is inside the item;
for a power of two of lanes every lane has its own slice. -/
def Obligations.LaneOffsetStaysInsideItem : Prop :=
  (∀ (c : Cfg) (wpl l r : Nat), laneOffset c wpl l r = (l ^^^ r) % c.numLanes * wpl) ∧
  (∀ (c : Cfg) (len l r i : Nat), 1 ≤ c.numLanes → i < len / c.numLanes →
    laneOffset c (len / c.numLanes) l r + i < len) ∧
  ∀ (c : Cfg) (n wpl r l l' : Nat), c.numLanes = 2 ^ n → 1 ≤ wpl → l < c.numLanes → l' < c.numLanes →
    laneOffset c wpl l r = laneOffset c wpl l' r → l = l'

/-- R199, R306: a lane's new row depends on its own row and on the shared values only: two states that differ in the other
lanes give lane `l` the same row. -/
def Obligations.LanesAreIndependent : Prop :=
  ∀ (s s' t t' : State) (i : Instr) (l : Nat),
    ((∃ r n, i = .cacheop r n) ∨ (∃ r n, i = .mathop r n) ∨ ∃ r n, i = .dagmerge r n) →
    s' = { s with core := { s.core with mix := s'.core.mix } } →
    s'.core.mix.getD l [] = s.core.mix.getD l [] → l < s.core.mix.length → l < s'.core.mix.length →
    exec i s = .next t → exec i s' = .next t' → t'.core.mix.getD l [] = t.core.mix.getD l []

/-! ### The successor function inside a round -/

/-- R183, R211: the helper targets `body`, `plan`, `dmerge`, `endround`. -/
def Obligations.RoundTargetsFollowTheCounts : Prop :=
  ∀ (c : Cfg) (wpl : Nat) (r : BitVec 8) (i : Nat),
    (i < c.numCacheAccesses → seqBody c wpl r i = ⟨0x09#8, r, BitVec.ofNat 16 i⟩) ∧
    (c.numCacheAccesses ≤ i → i < c.numMathOperations → seqBody c wpl r i = ⟨0x0A#8, r, BitVec.ofNat 16 i⟩) ∧
    (c.numCacheAccesses ≤ i → c.numMathOperations ≤ i → seqBody c wpl r i = seqPlan wpl r 0) ∧
    (i < wpl → seqPlan wpl r i = ⟨0x0B#8, r, BitVec.ofNat 16 i⟩ ∧ seqDmerge wpl r i = ⟨0x0C#8, r, BitVec.ofNat 16 i⟩) ∧
    (wpl ≤ i → seqPlan wpl r i = seqDmerge wpl r 0 ∧ seqDmerge wpl r i = seqEndround r) ∧
    (r.toNat < 63 → seqEndround r = ⟨0x07#8, BitVec.ofNat 8 (r.toNat + 1), 0#16⟩) ∧
    (63 ≤ r.toNat → seqEndround r = ⟨0x0D#8, 0#8, 0#16⟩)

/-! ### Reduction and resting states -/

/-- R212: the registers of the lane folded in ascending register number, from the offset basis; `MIX` is not changed. The
order is the spec's own choice, its decision D10. -/
def Obligations.LanehashFoldsOneRow : Prop :=
  ∀ (s : State) (l : BitVec 16), encode (.lanehash l) = 0x0D000000#32 ||| l.setWidth 32 ∧
    exec (.lanehash l) s = .next { s with
      core := { s.core with
        laneHash := s.core.laneHash.set l.toNat
          ((s.core.mix.getD l.toNat []).foldl (fun h d => (h ^^^ d) * s.cfg.fnvPrime) s.cfg.fnvOffsetBasis) }
      pc := if l.toNat + 1 < s.cfg.numLanes then ⟨0x0D#8, 0#8, BitVec.ofNat 16 (l.toNat + 1)⟩
        else ⟨0x0E#8, 0#8, 0#16⟩ }

/-- R213: lane 0 first sets all eight accumulators to the offset basis; the lane hash goes into accumulator `l % 8`.
The order of the lanes is the spec's own choice, its decision D10. -/
def Obligations.DigfoldFoldsIntoAccumulator : Prop :=
  ∀ (s : State) (l : BitVec 16), encode (.digfold l) = 0x0E000000#32 ||| l.setWidth 32 ∧
    ∃ dig, exec (.digfold l) s = .next { s with
        core := { s.core with dig := dig }
        pc := if l.toNat + 1 < s.cfg.numLanes then ⟨0x0E#8, 0#8, BitVec.ofNat 16 (l.toNat + 1)⟩
          else ⟨0x0F#8, 0#8, 0#16⟩ } ∧
      ∀ j : Fin 8,
        let old := if l.toNat = 0 then s.cfg.fnvOffsetBasis else s.core.dig[j]
        dig[j] = if j.val = l.toNat % 8 then fnv1a s.cfg old (s.core.laneHash.getD l.toNat 0#32) else old

/-- R214, R215, R42: byte `b` of word `j` stands at `4 j + b`, least or most significant first as configured, and HALT is
entered: the computation is finished. That `ST` becomes DONE in SERIAL's own step is the model's choice (log entry 18). -/
def Obligations.SerialWritesDigestBytes : Prop :=
  encode .serial = 0x0F000000#32 ∧
  ∀ s : State, ∃ bytes, exec .serial s = .next { s with
      core := { s.core with digBytes := bytes }
      st := .done
      pc := ⟨0x10#8, 0#8, 0#16⟩ } ∧
    ∀ (j : Fin 8) (b : Fin 4),
      (s.cfg.digestOrder = .le →
        (bytes[4 * j.val + b.val]'(by omega)).toNat = s.core.dig[j].toNat / 256 ^ b.val % 256) ∧
      (s.cfg.digestOrder = .be →
        (bytes[4 * j.val + b.val]'(by omega)).toNat = s.core.dig[j].toNat / 256 ^ (3 - b.val) % 256)

/-- R215, R216, R217: IDLE, HALT and FAULT stay where they are and change nothing else; HALT keeps `ST` at DONE. A block that
does not compute stays as it is for ever, until an input arrives. -/
def Obligations.RestingStatesRest : Prop :=
  encode .idle = 0x00000000#32 ∧ encode .halt = 0x10000000#32 ∧ encode .fault = 0x11000000#32 ∧
  (∀ s : State, exec .idle s = .next { s with pc := ⟨0x00#8, 0#8, 0#16⟩ }) ∧
  (∀ s : State, exec .halt s = .next { s with st := .done, pc := ⟨0x10#8, 0#8, 0#16⟩ }) ∧
  (∀ s : State, exec .fault s = .next { s with pc := ⟨0x11#8, 0#8, 0#16⟩ }) ∧
  ∀ s : State, s.Inv → s.st ≠ .busy → s.env = [] → ∀ n, Host.Core.run Sys2Proof.core n s = .next s

/-! ### MERGE and MATH -/

/-- R231, R232: the configured function of the three operands, and nothing else; with the default configuration the default
table, otherwise a function of which nothing is assumed (log entry 2). Where the operands stand is the model's choice (log
entry 12). -/
def Obligations.MergeAndMathAreConfigured : Prop :=
  encode .merge = 0x25000000#32 ∧ encode .math = 0x26000000#32 ∧
  ∀ s : State,
    exec .merge s = .next { s with port := { s.port with result := applyMerge s.cfg s.port.a s.port.b s.port.c } } ∧
    exec .math s = .next { s with port := { s.port with result := applyMath s.cfg s.port.a s.port.b s.port.c } } ∧
    (∀ n, s.cfg.merge = .external n → applyMerge s.cfg = Config.externalMerge n) ∧
    (∀ n, s.cfg.math = .external n → applyMath s.cfg = Config.externalMath n) ∧
    (s.cfg.merge = .defaultTable → applyMerge s.cfg = defaultMerge) ∧
    (s.cfg.math = .defaultTable → applyMath s.cfg = defaultMath)

/-- R233, R234, R96: a row of a default table, run with a selector that picks it, gives what `DEFAULT_MERGE` or `DEFAULT_MATH`
gives for that selector. Running a row as a call of its own is the model's choice (log entry 13). -/
def Obligations.SelectorRowsAreTheDefaultTables : Prop :=
  ∀ (s : State) (sel : Word),
    (∃ i, decode .mergeSelector sel = .ok i ∧
      exec i s = .next { s with port := { s.port with result := defaultMerge s.port.a s.port.b sel } }) ∧
    ∃ i, decode .mathSelector sel = .ok i ∧
      exec i s = .next { s with port := { s.port with result := defaultMath s.port.a s.port.b sel } }

/-- R233: what each row of the MERGE table computes, for every selector of the row; `x` is `sel[31:16] % 31 + 1`. Running
a row as a call of its own is the model's choice (log entry 13). -/
def Obligations.MergeRowResults : Prop :=
  ∀ (s : State) (hi : BitVec 30),
    let x := hi.toNat / 2 ^ 14 % 31 + 1
    let done := fun v : Word => (Host.Outcome.next { s with port := { s.port with result := v } } : Result)
    exec (.mergeRow0 hi) s = done (BitVec.ofNat 32 (s.port.a.toNat * 33 + s.port.b.toNat)) ∧
    exec (.mergeRow1 hi) s = done (BitVec.ofNat 32 ((s.port.a.toNat ^^^ s.port.b.toNat) * 33)) ∧
    exec (.mergeRow2 hi) s = done (s.port.a.rotateLeft x ^^^ s.port.b) ∧
    exec (.mergeRow3 hi) s = done (s.port.a.rotateRight x ^^^ s.port.b)

/-- R234: what each row of the MATH table computes, for every selector of the row. Running a row as a call of its own is the model's
choice (log entry 13). -/
def Obligations.MathRowResults : Prop :=
  ∀ (s : State) (q : Nat),
    let a := s.port.a
    let b := s.port.b
    let done := fun v : Word => (Host.Outcome.next { s with port := { s.port with result := v } } : Result)
    exec (.mathRow0 q) s = done (BitVec.ofNat 32 (a.toNat + b.toNat)) ∧
    exec (.mathRow1 q) s = done (BitVec.ofNat 32 (a.toNat * b.toNat)) ∧
    exec (.mathRow2 q) s = done (BitVec.ofNat 32 (a.toNat * b.toNat / 2 ^ 32)) ∧
    exec (.mathRow3 q) s = done (BitVec.ofNat 32 (min a.toNat b.toNat)) ∧
    exec (.mathRow4 q) s = done (a.rotateLeft (b.toNat % 32)) ∧
    exec (.mathRow5 q) s = done (a.rotateRight (b.toNat % 32)) ∧
    exec (.mathRow6 q) s = done (a &&& b) ∧
    exec (.mathRow7 q) s = done (a ||| b) ∧
    exec (.mathRow8 q) s = done (a ^^^ b) ∧
    exec (.mathRow9 q) s = done (BitVec.ofNat 32 (clz32 a + clz32 b)) ∧
    exec (.mathRow10 q) s = done (BitVec.ofNat 32 (popcount32 a + popcount32 b))

/-- R235: the helper functions of the tables: rotation by the low five bits of the amount, the high word of the 64-bit product,
the number of leading zero bits (32 for zero), the number of one bits, the unsigned minimum. The
tables are the spec's own choice, its decision D12. -/
def Obligations.HelperFunctionsOfTheTables : Prop :=
  ∀ a b : Word,
    (∀ n, rotl32 a n = a.rotateLeft (n % 32) ∧ rotr32 a n = a.rotateRight (n % 32)) ∧
    (mulhi32 a b).toNat = a.toNat * b.toNat / 2 ^ 32 ∧
    clz32 a ≤ 32 ∧ a.toNat < 2 ^ (32 - clz32 a) ∧ (a ≠ 0#32 → 2 ^ (31 - clz32 a) ≤ a.toNat) ∧
    clz32 0#32 = 32 ∧ popcount32 a = ((List.range 32).filter fun n => a.getLsbD n).length ∧
    (mathTable3 a b).toNat = min a.toNat b.toNat

/-! ### The host interface -/

/-- R259, R257, R258, R47: the three commands in every `ST`: NOP changes nothing; START is refused with `WERR` while BUSY, begins
at MIXSEED when the four halves and every cache word have been written, and is refused by the model otherwise (log entry 16); ABORT drops a
running computation and does nothing else. Nothing is said of the core state, which holds no value (log entry 5). -/
def Obligations.HostCommandsActOnSt : Prop :=
  encode .nop = 0x00000000#32 ∧ encode .start = 0x00000001#32 ∧ encode .abort = 0x00000002#32 ∧
  ∀ s : State,
    exec .nop s = .next s ∧
    (s.st = .busy → exec .start s = .next { s with werr := true }) ∧
    (s.st ≠ .busy → s.inputsHeld = true → ∃ core n, exec .start s = .next { s with
      core := core
      resp := none
      freeCount := n
      st := .busy
      werr := false
      errcode := 0#4
      errinfo := 0#32
      pc := ⟨0x01#8, 0#8, 0#16⟩ }) ∧
    (s.st ≠ .busy → s.inputsHeld = false → exec .start s = .refused .startWithoutInputs) ∧
    (s.inputsHeld = true ↔ s.seedLoHeld = true ∧ s.seedHiHeld = true ∧ s.heightLoHeld = true ∧
      s.heightHiHeld = true ∧ ∀ k, k < s.cfg.cacheSize → ∃ v, s.cacheHeld k = some v) ∧
    (s.st = .busy → ∃ core n, exec .abort s = .next { s with
      core := core
      resp := none
      freeCount := n
      st := .idle
      pc := ⟨0x00#8, 0#8, 0#16⟩ }) ∧
    (s.st ≠ .busy → exec .abort s = .next s)

/-- R254: a write of a half while `ST` is not BUSY replaces it and keeps the other half. That a half has been written is kept
in a field of the model (log entry 3). -/
def Obligations.HostWritesInputHalves : Prop :=
  ∀ (s : State) (v : Word) (rest : List Event), s.cfg.wf = true → s.st ≠ .busy →
    (s.env = .host (.write 0x010#32 32 v) :: rest → ∃ x : U64, x.toNat = s.seed.toNat / 2 ^ 32 * 2 ^ 32 + v.toNat ∧
      step s = .next { s with env := rest, seed := x, seedLoHeld := true }) ∧
    (s.env = .host (.write 0x014#32 32 v) :: rest → ∃ x : U64, x.toNat = v.toNat * 2 ^ 32 + s.seed.toNat % 2 ^ 32 ∧
      step s = .next { s with env := rest, seed := x, seedHiHeld := true }) ∧
    (s.env = .host (.write 0x018#32 32 v) :: rest → ∃ x : U64, x.toNat = s.height.toNat / 2 ^ 32 * 2 ^ 32 + v.toNat ∧
      step s = .next { s with env := rest, height := x, heightLoHeld := true }) ∧
    (s.env = .host (.write 0x01C#32 32 v) :: rest → ∃ x : U64, x.toNat = v.toNat * 2 ^ 32 + s.height.toNat % 2 ^ 32 ∧
      step s = .next { s with env := rest, height := x, heightHiHeld := true })

/-- R255, R62: the cache window. While `ST` is not BUSY a write stores the word, which is then what CACHEOP reads, and a read
returns it; while BUSY a write is refused and a read returns 0. The bytes the cache is kept as are the model's choice (log entry 8). -/
def Obligations.CacheWindowObeysSt : Prop :=
  ∀ (s : State) (k : Nat) (v : Word) (rest : List Event), s.cfg.wf = true → k < s.cfg.cacheSize →
    (s.env = .host (.write (BitVec.ofNat 32 (0x80000000 + 4 * k)) 32 v) :: rest → s.st ≠ .busy →
      ∃ cache, step s = .next { s with env := rest, cache := cache } ∧
        (let t := { s with env := rest, cache := cache }
         t.cacheHeld k = some v ∧ t.cacheWord k = v ∧
         (∀ k', k' ≠ k → t.cacheHeld k' = s.cacheHeld k' ∧ t.cacheWord k' = s.cacheWord k')) ∧
        ∀ a, (a < cacheAddr k ∨ cacheAddr k + 4 ≤ a) → readByte cache a = readByte s.cache a) ∧
    (s.env = .host (.write (BitVec.ofNat 32 (0x80000000 + 4 * k)) 32 v) :: rest → s.st = .busy →
      step s = .next { s with env := rest, werr := true }) ∧
    (s.env = .host (.read (BitVec.ofNat 32 (0x80000000 + 4 * k)) 32) :: rest → s.st ≠ .busy → s.cacheHeld k = some v →
      step s = .next { s with env := rest, rdata := v }) ∧
    (s.env = .host (.read (BitVec.ofNat 32 (0x80000000 + 4 * k)) 32) :: rest → s.st = .busy →
      step s = .next { s with env := rest, rdata := 0#32 })

/-- R252, R253, R256, R263, R254: what the host reads: `CTRL` as 0, `STATUS`, `PCREG` and `ERRINFO` field by field, the digest
words while `ST` is DONE and 0 otherwise, a half of the seed or the height that has been written; a misaligned or narrow
read and an unused offset (R250: from the digest words to the cache window, and above the last cache word) give 0. Nothing of the block changes. The field that holds the data read is the model's (log entry
10). -/
def Obligations.HostReadsRegisters : Prop :=
  ∀ (s : State) (rest : List Event), s.cfg.wf = true →
    (s.env = .host (.read 0x000#32 32) :: rest → step s = .next { s with env := rest, rdata := 0#32 }) ∧
    (s.env = .host (.read 0x004#32 32) :: rest → ∃ v : Word,
      v.toNat = s.st.code.toNat + 4 * s.werr.toNat + 16 * s.errcode.toNat ∧
      step s = .next { s with env := rest, rdata := v }) ∧
    (s.env = .host (.read 0x008#32 32) :: rest → ∃ v : Word,
      v.toNat = s.pc.op.toNat * 2 ^ 24 + s.pc.r.toNat * 2 ^ 16 + s.pc.idx.toNat ∧
      step s = .next { s with env := rest, rdata := v }) ∧
    (s.env = .host (.read 0x00C#32 32) :: rest → step s = .next { s with env := rest, rdata := s.errinfo }) ∧
    (∀ j : Fin 8, s.env = .host (.read (BitVec.ofNat 32 (0x020 + 4 * j.val)) 32) :: rest →
      step s = .next { s with env := rest, rdata := if s.st = .done then s.core.dig[j] else 0#32 }) ∧
    (s.env = .host (.read 0x010#32 32) :: rest → s.seedLoHeld = true →
      step s = .next { s with env := rest, rdata := BitVec.ofNat 32 (s.seed.toNat % 2 ^ 32) }) ∧
    (s.env = .host (.read 0x014#32 32) :: rest → s.seedHiHeld = true →
      step s = .next { s with env := rest, rdata := BitVec.ofNat 32 (s.seed.toNat / 2 ^ 32) }) ∧
    (s.env = .host (.read 0x018#32 32) :: rest → s.heightLoHeld = true →
      step s = .next { s with env := rest, rdata := BitVec.ofNat 32 (s.height.toNat % 2 ^ 32) }) ∧
    (s.env = .host (.read 0x01C#32 32) :: rest → s.heightHiHeld = true →
      step s = .next { s with env := rest, rdata := BitVec.ofNat 32 (s.height.toNat / 2 ^ 32) }) ∧
    ∀ (offset : Word) (width : Nat), s.env = .host (.read offset width) :: rest →
      (width ≠ 32 ∨ offset.toNat % 4 ≠ 0 ∨ (0x040 ≤ offset.toNat ∧ offset.toNat ≤ 0x7FFFFFFC) ∨
        0x80000000 + 4 * s.cfg.cacheSize ≤ offset.toNat) →
      step s = .next { s with env := rest, rdata := 0#32 }

/-- R260: every refused write, (a) to (e), changes nothing but `WERR`; the offsets are those of R250. -/
def Obligations.RefusedWritesSetWerrOnly : Prop :=
  ∀ (s : State) (offset v : Word) (width : Nat) (rest : List Event), s.cfg.wf = true →
    s.env = .host (.write offset width v) :: rest →
    ((s.st = .busy ∧ (offset = 0x010#32 ∨ offset = 0x014#32 ∨ offset = 0x018#32 ∨ offset = 0x01C#32 ∨
        ∃ k, k < s.cfg.cacheSize ∧ offset.toNat = 0x80000000 + 4 * k)) ∨
      (s.st = .busy ∧ offset = 0#32 ∧ v = 1#32) ∨
      offset = 0x004#32 ∨ offset = 0x008#32 ∨ offset = 0x00C#32 ∨
      (0x020 ≤ offset.toNat ∧ offset.toNat ≤ 0x03C) ∨ (0x040 ≤ offset.toNat ∧ offset.toNat ≤ 0x7FFFFFFC) ∨
      0x80000000 + 4 * s.cfg.cacheSize ≤ offset.toNat ∨
      (offset = 0#32 ∧ 3 ≤ v.toNat) ∨ offset.toNat % 4 ≠ 0 ∨ width ≠ 32) →
    step s = .next { s with env := rest, werr := true }

/-- R260, R275: `WERR` is sticky, and nothing resumes an aborted computation: only a START command and reset clear `WERR` or
lead out of ERROR. -/
def Obligations.OnlyStartOrResetClears : Prop :=
  ∀ s t : State, s.Inv → step s = .next t →
    ((s.werr = true ∧ t.werr = false) ∨ (s.st = .error ∧ t.st ≠ .error)) →
    ∃ e rest, s.env = e :: rest ∧ (e.isStart = true ∨ e = .reset)

/-- R63, R77 (b), R260, R311, R6: while a computation runs, no step but reset changes an input, the cache, the dataset or the
configuration, and nothing but the sequencer's turn, ABORT and reset changes the core state, `PC` or `ST`. That a held answer,
which the model keeps in a field (log entry 19), stays through a host access is stated with it. -/
def Obligations.RunningComputationIsUndisturbed : Prop :=
  ∀ s t : State, s.st = .busy → step s = .next t →
    ((∀ rest, s.env ≠ .reset :: rest) → t.seed = s.seed ∧ t.height = s.height ∧ t.cache = s.cache ∧
      t.dataset = s.dataset ∧ t.cfg = s.cfg ∧ t.inputsHeld = s.inputsHeld) ∧
    ∀ e rest, s.env = e :: rest → e ≠ .sequencer → e ≠ .reset → e.isAbort = false →
      t.core = s.core ∧ t.pc = s.pc ∧ t.st = .busy ∧ ((∃ a, e = .host a) → t.resp = s.resp)

/-- R261, R77 (c), R215, R262: the level outputs are functions of `ST`; once `ST` is DONE the `digest_bytes` output shows the
digest, and digest and outputs stay until START or reset; ABORT does nothing. -/
def Obligations.DigestStaysWhenDone : Prop :=
  (∀ s : State, (s.doneOut = true ↔ s.st = .done) ∧ (s.errorOut = true ↔ s.st = .error)) ∧
  ∀ s : State, s.Inv → s.st = .done →
    (∀ n : Fin 32, s.digestOut n = s.core.digBytes[n]) ∧
    ∀ t : State, step s = .next t → (∀ e rest, s.env = e :: rest → e.isStart = false ∧ e ≠ .reset) →
      t.st = .done ∧ t.doneOut = true ∧ t.errorOut = false ∧ t.core.dig = s.core.dig ∧ t.core.digBytes = s.core.digBytes ∧
        ∀ n : Fin 32, t.digestOut n = s.digestOut n

/-- R42, R271: the instructions that write `ST`; LOOKUP is the only one that raises the exception, and only on an answer. -/
def Obligations.OnlyFiveInstructionsWriteSt : Prop :=
  ∀ (i : Instr) (s t : State), exec i s = .next t → t.st ≠ s.st →
    (i = .start ∧ t.st = .busy) ∨ (i = .abort ∧ s.st = .busy ∧ t.st = .idle) ∨ (i = .serial ∧ t.st = .done) ∨
      (i = .halt ∧ t.st = .done) ∨ ((∃ r, i = .lookup r) ∧ s.resp.isSome = true ∧ t.st = .error)

/-- R48, R300: what reset leaves, from every state: `ST` IDLE, `WERR`, `ERRCODE`, `ERRINFO` zero, `PC` at IDLE, and no input
holding a value. The values the model gives the core state at reset are log entry 4 and are not stated here. -/
def Obligations.ResetInputGivesResetTable : Prop :=
  ∀ (s : State) (rest : List Event), s.cfg.wf = true → s.env = .reset :: rest →
    ∃ t, step s = .next t ∧ t.st = .idle ∧ t.werr = false ∧ t.errcode = 0#4 ∧ t.errinfo = 0#32 ∧
      t.pc = ⟨0x00#8, 0#8, 0#16⟩ ∧ t.resp = none ∧ t.cfg = s.cfg ∧ t.seedLoHeld = false ∧ t.seedHiHeld = false ∧
      t.heightLoHeld = false ∧ t.heightHiHeld = false ∧ (∀ k, t.cacheHeld k = none) ∧ t.statusWord = 0#32 ∧
      t.pcreg = 0#32
end

