-- ==== Sys2Proof/Laws/Decode.lean ====
section
/-! SUPPORT. The fields of a word put together from fields, the selectors taken apart and put together, and what the decoders
of the fields answer. -/

namespace Sys2Proof

/-! ### Words of formats S and P (R91, R93) -/

theorem fieldsWord_getLsbD (op r : BitVec 8) (idx : BitVec 16) (i : Nat) :
    (fieldsWord op r idx).getLsbD i =
      if i < 16 then idx.getLsbD i else if i < 24 then r.getLsbD (i - 16) else op.getLsbD (i - 24) := by
  show ((op ++ r ++ idx : BitVec (8 + 8 + 16))).getLsbD i = _
  simp only [BitVec.getLsbD_append]
  by_cases h : i < 16
  · simp [h]
  · by_cases h' : i < 24
    · simp [h, h', show i - 16 < 8 by omega]
    · simp [h, h', show ¬ i - 16 < 8 by omega, show i - 16 - 8 = i - 24 by omega]

@[simp] theorem opField_fieldsWord (op r : BitVec 8) (idx : BitVec 16) : opField (fieldsWord op r idx) = op := by
  apply BitVec.eq_of_getLsbD_eq
  intro i hi
  simp [opField, hi, fieldsWord_getLsbD, show ¬ 24 + i < 16 by omega]

@[simp] theorem roundField_fieldsWord (op r : BitVec 8) (idx : BitVec 16) : roundField (fieldsWord op r idx) = r := by
  apply BitVec.eq_of_getLsbD_eq
  intro i hi
  simp [roundField, hi, fieldsWord_getLsbD, show 16 + i < 24 by omega]

@[simp] theorem idxField_fieldsWord (op r : BitVec 8) (idx : BitVec 16) : idxField (fieldsWord op r idx) = idx := by
  apply BitVec.eq_of_getLsbD_eq
  intro i hi
  simp [idxField, hi, fieldsWord_getLsbD]

/-- A word is put together from its fields. -/
theorem fieldsWord_fields (w : Word) : fieldsWord (opField w) (roundField w) (idxField w) = w := by
  apply BitVec.eq_of_getLsbD_eq
  intro i hi
  rw [fieldsWord_getLsbD]
  by_cases h : i < 16
  · simp [h, idxField]
  · by_cases h' : i < 24
    · simp [h, h', roundField, show i - 16 < 8 by omega, show 16 + (i - 16) = i by omega]
    · simp [h, h', opField, show i - 24 < 8 by omega, show 24 + (i - 24) = i by omega]

/-- The layout of R91 as the tables of R92 write it: the code in place, `r` in bits 23:16, `idx` in bits 15:0. -/
theorem fieldsWord_eq_or (op r : BitVec 8) (idx : BitVec 16) :
    fieldsWord op r idx = (op.setWidth 32 <<< 24) ||| (r.setWidth 32 <<< 16) ||| idx.setWidth 32 := by
  apply BitVec.eq_of_getLsbD_eq
  intro i hi
  rw [fieldsWord_getLsbD]
  simp only [BitVec.getLsbD_or, BitVec.getLsbD_shiftLeft, BitVec.getLsbD_setWidth, hi, decide_true, Bool.true_and]
  by_cases h : i < 16
  · simp [h, show i < 24 by omega]
  · by_cases h' : i < 24
    · simp [h, h', show i - 16 < 32 by omega, BitVec.getLsbD_of_ge idx i (by omega)]
    · simp [h, h', show i - 24 < 32 by omega, BitVec.getLsbD_of_ge idx i (by omega),
        BitVec.getLsbD_of_ge r (i - 16) (by omega)]

/-- `PCREG` is the word of the three fields of `PC` (R253). -/
theorem Machine.State.pcreg_eq (s : Machine.State) : s.pcreg = fieldsWord s.pc.op s.pc.r s.pc.idx := rfl

/-- What format S reads from a word put together from its fields. -/
theorem decodeS_fieldsWord (op r : BitVec 8) (idx : BitVec 16) : decodeS (fieldsWord op r idx) =
    match op.toNat with
    | 0x00 => if r = 0#8 ∧ idx = 0#16 then .ok .idle else .rejected .fieldNotZero
    | 0x01 => if r = 0#8 ∧ idx = 0#16 then .ok .mixseed else .rejected .fieldNotZero
    | 0x02 => if r = 0#8 then .ok (.laneseed idx) else .rejected .fieldNotZero
    | 0x03 => if r = 0#8 then .ok (.lanefill idx) else .rejected .fieldNotZero
    | 0x04 => if r = 0#8 ∧ idx = 0#16 then .ok .epoch else .rejected .fieldNotZero
    | 0x05 => if r = 0#8 ∧ idx = 0#16 then .ok .schseed else .rejected .fieldNotZero
    | 0x06 => if r = 0#8 then .ok (.fyswap idx) else .rejected .fieldNotZero
    | 0x07 => if r.toNat ≤ 63 then if idx = 0#16 then .ok (.itemsel r) else .rejected .fieldNotZero
              else .rejected .roundAbove63
    | 0x08 => if r.toNat ≤ 63 then if idx = 0#16 then .ok (.lookup r) else .rejected .fieldNotZero
              else .rejected .roundAbove63
    | 0x09 => if r.toNat ≤ 63 then .ok (.cacheop r idx) else .rejected .roundAbove63
    | 0x0A => if r.toNat ≤ 63 then .ok (.mathop r idx) else .rejected .roundAbove63
    | 0x0B => if r.toNat ≤ 63 then .ok (.dagplan r idx) else .rejected .roundAbove63
    | 0x0C => if r.toNat ≤ 63 then .ok (.dagmerge r idx) else .rejected .roundAbove63
    | 0x0D => if r = 0#8 then .ok (.lanehash idx) else .rejected .fieldNotZero
    | 0x0E => if r = 0#8 then .ok (.digfold idx) else .rejected .fieldNotZero
    | 0x0F => if r = 0#8 ∧ idx = 0#16 then .ok .serial else .rejected .fieldNotZero
    | 0x10 => if r = 0#8 ∧ idx = 0#16 then .ok .halt else .rejected .fieldNotZero
    | 0x11 => if r = 0#8 ∧ idx = 0#16 then .ok .fault else .rejected .fieldNotZero
    | n => if 0x20 ≤ n ∧ n ≤ 0x26 then .rejected .primitiveInPc else .rejected .unassignedOp := by
  simp only [decodeS, opField_fieldsWord, decodePlain, decodeIdx, decodeRound, decodeRoundIdx, roundField_fieldsWord,
    idxField_fieldsWord] <;> rfl

/-! ### Selectors (R96) -/

@[simp] theorem selectorHigh_mergeSelectorWord (hi : BitVec 30) (k : BitVec 2) :
    selectorHigh (mergeSelectorWord hi k) = hi := by
  apply BitVec.eq_of_getLsbD_eq
  intro i hi'
  rw [selectorHigh, BitVec.getLsbD_extractLsb', show mergeSelectorWord hi k = ((hi ++ k : BitVec (30 + 2))) from rfl,
    BitVec.getLsbD_append]
  simp [hi', show ¬ 2 + i < 2 by omega]

@[simp] theorem mergeSelectorWord_row (hi : BitVec 30) (k : BitVec 2) :
    (mergeSelectorWord hi k).extractLsb' 0 2 = k := by
  apply BitVec.eq_of_getLsbD_eq
  intro i hi'
  rw [BitVec.getLsbD_extractLsb', show mergeSelectorWord hi k = ((hi ++ k : BitVec (30 + 2))) from rfl,
    BitVec.getLsbD_append]
  simp [hi']

/-- A MERGE selector is put together from its row and its other bits. -/
theorem mergeSelectorWord_fields (w : Word) : mergeSelectorWord (selectorHigh w) (w.extractLsb' 0 2) = w := by
  apply BitVec.eq_of_getLsbD_eq
  intro i hi
  show ((selectorHigh w ++ w.extractLsb' 0 2 : BitVec (30 + 2))).getLsbD i = _
  simp only [BitVec.getLsbD_append, selectorHigh, BitVec.getLsbD_extractLsb']
  by_cases h : i < 2
  · simp [h]
  · simp [h, show i - 2 < 30 by omega, show 2 + (i - 2) = i by omega]

/-- A MERGE selector as a number: four times its high bits, and its row. -/
theorem mergeSelectorWord_toNat (hi : BitVec 30) (k : BitVec 2) :
    (mergeSelectorWord hi k).toNat = hi.toNat * 4 + k.toNat := by
  show ((hi ++ k : BitVec (30 + 2))).toNat = _
  rw [BitVec.toNat_append, ← Nat.shiftLeft_add_eq_or_of_lt k.isLt, Nat.shiftLeft_eq]

/-- A MATH selector that is a word is the number it is made of. -/
theorem mathSelectorWord_toNat (q k : Nat) (h : 11 * q + k < 2 ^ 32) : (mathSelectorWord q k).toNat = 11 * q + k := by
  rw [mathSelectorWord, BitVec.toNat_ofNat, Nat.mod_eq_of_lt h]

end Sys2Proof
end

