-- ==== Sys2Proof/Laws/Memory.lean ====
section
/-! SUPPORT. The laws of the memory of `CACHE`: a read after a write, and the canonical form kept by every operation. -/

namespace Sys2Proof.Machine

theorem readByte_writeByte_same (m : Memory) (a : Nat) (b : Byte) : readByte (writeByte m a b) a = some b := by
  induction m with
  | nil => simp [writeByte, readByte]
  | cons cell rest ih =>
    obtain ⟨x, v⟩ := cell
    unfold writeByte
    split
    · simp [readByte]
    · split
      · simp [readByte]
      · rename_i h
        simp [readByte, Ne.symm h, ih]

theorem readByte_writeByte_other (m : Memory) (a a' : Nat) (b : Byte) (h : a' ≠ a) :
    readByte (writeByte m a b) a' = readByte m a' := by
  induction m with
  | nil => simp [writeByte, readByte, Ne.symm h]
  | cons cell rest ih =>
    obtain ⟨x, v⟩ := cell
    unfold writeByte
    split
    · simp [readByte, Ne.symm h]
    · split
      · rename_i hax
        subst hax
        simp [readByte, Ne.symm h]
      · simp [readByte, ih]

/-- One byte after a write of one byte. -/
theorem readByte_writeByte (m : Memory) (a a' : Nat) (b : Byte) :
    readByte (writeByte m a b) a' = if a' = a then some b else readByte m a' := by
  split
  · rename_i h; subst h; exact readByte_writeByte_same m _ b
  · rename_i h; exact readByte_writeByte_other m a a' b h

/-- One byte after a write of one word: the word's bytes at `a .. a + 3`, every other byte as before. -/
theorem readByte_writeWord (m : Memory) (a a' : Nat) (w : Word) :
    readByte (writeWord m a w) a' =
      if a ≤ a' ∧ a' < a + 4 then some (byteOf w (a' - a)) else readByte m a' := by
  simp only [writeWord, readByte_writeByte]
  by_cases h3 : a' = a + 3
  · subst h3; simp
  by_cases h2 : a' = a + 2
  · subst h2; simp
  by_cases h1 : a' = a + 1
  · subst h1; simp
  by_cases h0 : a' = a
  · subst h0; simp
  · have : ¬ (a ≤ a' ∧ a' < a + 4) := by omega
    simp [h0, h1, h2, h3, this]

theorem wordOfBytes_byteOf (w : Word) : wordOfBytes (byteOf w 0) (byteOf w 1) (byteOf w 2) (byteOf w 3) = w := by
  apply BitVec.eq_of_getLsbD_eq
  intro i hi
  show ((byteOf w 3 ++ byteOf w 2 ++ byteOf w 1 ++ byteOf w 0 : BitVec (8 + 8 + 8 + 8))).getLsbD i = w.getLsbD i
  simp only [byteOf, BitVec.getLsbD_append, BitVec.getLsbD_extractLsb']
  split
  · simp [*]
  · split
    · rw [decide_eq_true (by omega), Bool.true_and]; congr 1; omega
    · split
      · rw [decide_eq_true (by omega), Bool.true_and]; congr 1; omega
      · rw [decide_eq_true (by omega), Bool.true_and]; congr 1; omega

/-- A word reads back as written. -/
theorem readWord_writeWord_same (m : Memory) (a : Nat) (w : Word) : readWord (writeWord m a w) a = some w := by
  simp [readWord, readByte_writeWord, wordOfBytes_byteOf]

/-- A word that shares no byte with the one written reads as before. -/
theorem readWord_writeWord_apart (m : Memory) (a a' : Nat) (w : Word) (h : a' + 4 ≤ a ∨ a + 4 ≤ a') :
    readWord (writeWord m a w) a' = readWord m a' := by
  have e : ∀ j, j < 4 → readByte (writeWord m a w) (a' + j) = readByte m (a' + j) := by
    intro j hj
    rw [readByte_writeWord, if_neg (by omega)]
  have e0 := e 0 (by omega)
  rw [Nat.add_zero] at e0
  simp only [readWord, e0, e 1 (by omega), e 2 (by omega), e 3 (by omega)]

/-- `CACHE[k']` after a write of `CACHE[k]` (R255). -/
theorem State.cacheHeld_writeCache (s : State) (k k' : Nat) (v : Word) :
    (s.writeCache k v).cacheHeld k' = if k' = k then some v else s.cacheHeld k' := by
  split
  · rename_i h; subst h; exact readWord_writeWord_same _ _ _
  · rename_i h
    exact readWord_writeWord_apart _ _ _ _ (by unfold cacheAddr; omega)

/-! ### The canonical form -/

theorem mem_writeByte {m : Memory} {a : Nat} {b : Byte} {cell : Host.Cell} (h : cell ∈ writeByte m a b) :
    cell = (a, b) ∨ cell ∈ m := by
  induction m with
  | nil => simpa [writeByte] using h
  | cons x rest ih =>
    obtain ⟨x, v⟩ := x
    unfold writeByte at h
    split at h
    · simpa using h
    · split at h
      · rcases List.mem_cons.1 h with h | h
        · exact .inl h
        · exact .inr (List.mem_cons_of_mem _ h)
      · rcases List.mem_cons.1 h with h | h
        · exact .inr (h ▸ List.mem_cons_self)
        · exact (ih h).imp id (List.mem_cons_of_mem _)

theorem Memory.wf_cons (cell : Host.Cell) (rest : Memory) :
    Memory.wf (cell :: rest) = true ↔ (∀ y ∈ rest, cell.1 < y.1) ∧ Memory.wf rest = true := by
  obtain ⟨x, v⟩ := cell
  rw [Memory.wf, Bool.and_eq_true, List.all_eq_true]
  simp only [decide_eq_true_eq]

/-- A byte write keeps the canonical form. -/
theorem Memory.wf_writeByte {m : Memory} (a : Nat) (b : Byte) (h : Memory.wf m = true) :
    Memory.wf (writeByte m a b) = true := by
  induction m with
  | nil => simp [writeByte, Memory.wf]
  | cons x rest ih =>
    obtain ⟨x, v⟩ := x
    obtain ⟨hx, hr⟩ := (Memory.wf_cons _ _).1 h
    unfold writeByte
    split
    · rename_i hlt
      refine (Memory.wf_cons _ _).2 ⟨fun y hy => ?_, h⟩
      rcases List.mem_cons.1 hy with rfl | hy
      · exact hlt
      · exact Nat.lt_trans hlt (hx y hy)
    · split
      · rename_i h1 h2
        subst h2
        exact (Memory.wf_cons _ _).2 ⟨hx, hr⟩
      · refine (Memory.wf_cons _ _).2 ⟨fun y hy => ?_, ih hr⟩
        rcases mem_writeByte hy with rfl | hy
        · show x < a; omega
        · exact hx y hy

/-- A word write keeps the canonical form. -/
theorem Memory.wf_writeWord {m : Memory} (a : Nat) (w : Word) (h : Memory.wf m = true) :
    Memory.wf (writeWord m a w) = true :=
  Memory.wf_writeByte _ _ (Memory.wf_writeByte _ _ (Memory.wf_writeByte _ _ (Memory.wf_writeByte _ _ h)))

/-- What a word write can list: an address of the word, or one that was listed before. -/
theorem mem_writeWord {m : Memory} {a : Nat} {w : Word} {cell : Host.Cell} (h : cell ∈ writeWord m a w) :
    (a ≤ cell.1 ∧ cell.1 < a + 4) ∨ cell ∈ m := by
  unfold writeWord at h
  rcases mem_writeByte h with h | h
  · subst h; left; constructor <;> simp
  rcases mem_writeByte h with h | h
  · subst h; left; constructor <;> simp
  rcases mem_writeByte h with h | h
  · subst h; left; constructor <;> simp
  rcases mem_writeByte h with h | h
  · subst h; left; constructor <;> simp
  · exact .inr h

/-- The memory at reset has the canonical form. -/
theorem State.resetWith_cache_wf (c : Cfg) : Memory.wf (State.resetWith c).cache = true := rfl

end Sys2Proof.Machine
end

