-- ==== Sys2Proof/Laws/State.lean ====
section
/-! SUPPORT. What each named update of the state does to each field: one lemma per field per update, true by rfl. -/

namespace Sys2Proof.Machine

/-! ### `goto` -/

@[simp] theorem State.goto_cfg (s : State) (p : Pc) : (s.goto p).cfg = s.cfg := rfl
@[simp] theorem State.goto_seed (s : State) (p : Pc) : (s.goto p).seed = s.seed := rfl
@[simp] theorem State.goto_seedLoHeld (s : State) (p : Pc) : (s.goto p).seedLoHeld = s.seedLoHeld := rfl
@[simp] theorem State.goto_seedHiHeld (s : State) (p : Pc) : (s.goto p).seedHiHeld = s.seedHiHeld := rfl
@[simp] theorem State.goto_height (s : State) (p : Pc) : (s.goto p).height = s.height := rfl
@[simp] theorem State.goto_heightLoHeld (s : State) (p : Pc) : (s.goto p).heightLoHeld = s.heightLoHeld := rfl
@[simp] theorem State.goto_heightHiHeld (s : State) (p : Pc) : (s.goto p).heightHiHeld = s.heightHiHeld := rfl
@[simp] theorem State.goto_cache (s : State) (p : Pc) : (s.goto p).cache = s.cache := rfl
@[simp] theorem State.goto_core (s : State) (p : Pc) : (s.goto p).core = s.core := rfl
@[simp] theorem State.goto_pc (s : State) (p : Pc) : (s.goto p).pc = p := rfl
@[simp] theorem State.goto_st (s : State) (p : Pc) : (s.goto p).st = s.st := rfl
@[simp] theorem State.goto_werr (s : State) (p : Pc) : (s.goto p).werr = s.werr := rfl
@[simp] theorem State.goto_errcode (s : State) (p : Pc) : (s.goto p).errcode = s.errcode := rfl
@[simp] theorem State.goto_errinfo (s : State) (p : Pc) : (s.goto p).errinfo = s.errinfo := rfl
@[simp] theorem State.goto_dataset (s : State) (p : Pc) : (s.goto p).dataset = s.dataset := rfl
@[simp] theorem State.goto_resp (s : State) (p : Pc) : (s.goto p).resp = s.resp := rfl
@[simp] theorem State.goto_env (s : State) (p : Pc) : (s.goto p).env = s.env := rfl
@[simp] theorem State.goto_rdata (s : State) (p : Pc) : (s.goto p).rdata = s.rdata := rfl
@[simp] theorem State.goto_port (s : State) (p : Pc) : (s.goto p).port = s.port := rfl
@[simp] theorem State.goto_call (s : State) (p : Pc) : (s.goto p).call = s.call := rfl
@[simp] theorem State.goto_freeCount (s : State) (p : Pc) : (s.goto p).freeCount = s.freeCount := rfl

/-! ### `withCore` -/

@[simp] theorem State.withCore_cfg (s : State) (k : Core) : (s.withCore k).cfg = s.cfg := rfl
@[simp] theorem State.withCore_seed (s : State) (k : Core) : (s.withCore k).seed = s.seed := rfl
@[simp] theorem State.withCore_seedLoHeld (s : State) (k : Core) : (s.withCore k).seedLoHeld = s.seedLoHeld := rfl
@[simp] theorem State.withCore_seedHiHeld (s : State) (k : Core) : (s.withCore k).seedHiHeld = s.seedHiHeld := rfl
@[simp] theorem State.withCore_height (s : State) (k : Core) : (s.withCore k).height = s.height := rfl
@[simp] theorem State.withCore_heightLoHeld (s : State) (k : Core) : (s.withCore k).heightLoHeld = s.heightLoHeld := rfl
@[simp] theorem State.withCore_heightHiHeld (s : State) (k : Core) : (s.withCore k).heightHiHeld = s.heightHiHeld := rfl
@[simp] theorem State.withCore_cache (s : State) (k : Core) : (s.withCore k).cache = s.cache := rfl
@[simp] theorem State.withCore_core (s : State) (k : Core) : (s.withCore k).core = k := rfl
@[simp] theorem State.withCore_pc (s : State) (k : Core) : (s.withCore k).pc = s.pc := rfl
@[simp] theorem State.withCore_st (s : State) (k : Core) : (s.withCore k).st = s.st := rfl
@[simp] theorem State.withCore_werr (s : State) (k : Core) : (s.withCore k).werr = s.werr := rfl
@[simp] theorem State.withCore_errcode (s : State) (k : Core) : (s.withCore k).errcode = s.errcode := rfl
@[simp] theorem State.withCore_errinfo (s : State) (k : Core) : (s.withCore k).errinfo = s.errinfo := rfl
@[simp] theorem State.withCore_dataset (s : State) (k : Core) : (s.withCore k).dataset = s.dataset := rfl
@[simp] theorem State.withCore_resp (s : State) (k : Core) : (s.withCore k).resp = s.resp := rfl
@[simp] theorem State.withCore_env (s : State) (k : Core) : (s.withCore k).env = s.env := rfl
@[simp] theorem State.withCore_rdata (s : State) (k : Core) : (s.withCore k).rdata = s.rdata := rfl
@[simp] theorem State.withCore_port (s : State) (k : Core) : (s.withCore k).port = s.port := rfl
@[simp] theorem State.withCore_call (s : State) (k : Core) : (s.withCore k).call = s.call := rfl
@[simp] theorem State.withCore_freeCount (s : State) (k : Core) : (s.withCore k).freeCount = s.freeCount := rfl

/-! ### `withResult` -/

@[simp] theorem State.withResult_cfg (s : State) (v : Word) : (s.withResult v).cfg = s.cfg := rfl
@[simp] theorem State.withResult_seed (s : State) (v : Word) : (s.withResult v).seed = s.seed := rfl
@[simp] theorem State.withResult_seedLoHeld (s : State) (v : Word) : (s.withResult v).seedLoHeld = s.seedLoHeld := rfl
@[simp] theorem State.withResult_seedHiHeld (s : State) (v : Word) : (s.withResult v).seedHiHeld = s.seedHiHeld := rfl
@[simp] theorem State.withResult_height (s : State) (v : Word) : (s.withResult v).height = s.height := rfl
@[simp] theorem State.withResult_heightLoHeld (s : State) (v : Word) : (s.withResult v).heightLoHeld = s.heightLoHeld := rfl
@[simp] theorem State.withResult_heightHiHeld (s : State) (v : Word) : (s.withResult v).heightHiHeld = s.heightHiHeld := rfl
@[simp] theorem State.withResult_cache (s : State) (v : Word) : (s.withResult v).cache = s.cache := rfl
@[simp] theorem State.withResult_core (s : State) (v : Word) : (s.withResult v).core = s.core := rfl
@[simp] theorem State.withResult_pc (s : State) (v : Word) : (s.withResult v).pc = s.pc := rfl
@[simp] theorem State.withResult_st (s : State) (v : Word) : (s.withResult v).st = s.st := rfl
@[simp] theorem State.withResult_werr (s : State) (v : Word) : (s.withResult v).werr = s.werr := rfl
@[simp] theorem State.withResult_errcode (s : State) (v : Word) : (s.withResult v).errcode = s.errcode := rfl
@[simp] theorem State.withResult_errinfo (s : State) (v : Word) : (s.withResult v).errinfo = s.errinfo := rfl
@[simp] theorem State.withResult_dataset (s : State) (v : Word) : (s.withResult v).dataset = s.dataset := rfl
@[simp] theorem State.withResult_resp (s : State) (v : Word) : (s.withResult v).resp = s.resp := rfl
@[simp] theorem State.withResult_env (s : State) (v : Word) : (s.withResult v).env = s.env := rfl
@[simp] theorem State.withResult_rdata (s : State) (v : Word) : (s.withResult v).rdata = s.rdata := rfl
@[simp] theorem State.withResult_port (s : State) (v : Word) : (s.withResult v).port = { s.port with result := v } := rfl
@[simp] theorem State.withResult_call (s : State) (v : Word) : (s.withResult v).call = s.call := rfl
@[simp] theorem State.withResult_freeCount (s : State) (v : Word) : (s.withResult v).freeCount = s.freeCount := rfl

/-! ### `refuseWrite` -/

@[simp] theorem State.refuseWrite_cfg (s : State) : s.refuseWrite.cfg = s.cfg := rfl
@[simp] theorem State.refuseWrite_seed (s : State) : s.refuseWrite.seed = s.seed := rfl
@[simp] theorem State.refuseWrite_seedLoHeld (s : State) : s.refuseWrite.seedLoHeld = s.seedLoHeld := rfl
@[simp] theorem State.refuseWrite_seedHiHeld (s : State) : s.refuseWrite.seedHiHeld = s.seedHiHeld := rfl
@[simp] theorem State.refuseWrite_height (s : State) : s.refuseWrite.height = s.height := rfl
@[simp] theorem State.refuseWrite_heightLoHeld (s : State) : s.refuseWrite.heightLoHeld = s.heightLoHeld := rfl
@[simp] theorem State.refuseWrite_heightHiHeld (s : State) : s.refuseWrite.heightHiHeld = s.heightHiHeld := rfl
@[simp] theorem State.refuseWrite_cache (s : State) : s.refuseWrite.cache = s.cache := rfl
@[simp] theorem State.refuseWrite_core (s : State) : s.refuseWrite.core = s.core := rfl
@[simp] theorem State.refuseWrite_pc (s : State) : s.refuseWrite.pc = s.pc := rfl
@[simp] theorem State.refuseWrite_st (s : State) : s.refuseWrite.st = s.st := rfl
@[simp] theorem State.refuseWrite_werr (s : State) : s.refuseWrite.werr = true := rfl
@[simp] theorem State.refuseWrite_errcode (s : State) : s.refuseWrite.errcode = s.errcode := rfl
@[simp] theorem State.refuseWrite_errinfo (s : State) : s.refuseWrite.errinfo = s.errinfo := rfl
@[simp] theorem State.refuseWrite_dataset (s : State) : s.refuseWrite.dataset = s.dataset := rfl
@[simp] theorem State.refuseWrite_resp (s : State) : s.refuseWrite.resp = s.resp := rfl
@[simp] theorem State.refuseWrite_env (s : State) : s.refuseWrite.env = s.env := rfl
@[simp] theorem State.refuseWrite_rdata (s : State) : s.refuseWrite.rdata = s.rdata := rfl
@[simp] theorem State.refuseWrite_port (s : State) : s.refuseWrite.port = s.port := rfl
@[simp] theorem State.refuseWrite_call (s : State) : s.refuseWrite.call = s.call := rfl
@[simp] theorem State.refuseWrite_freeCount (s : State) : s.refuseWrite.freeCount = s.freeCount := rfl

/-! ### `writeCache` -/

@[simp] theorem State.writeCache_cfg (s : State) (k : Nat) (v : Word) : (s.writeCache k v).cfg = s.cfg := rfl
@[simp] theorem State.writeCache_seed (s : State) (k : Nat) (v : Word) : (s.writeCache k v).seed = s.seed := rfl
@[simp] theorem State.writeCache_seedLoHeld (s : State) (k : Nat) (v : Word) : (s.writeCache k v).seedLoHeld = s.seedLoHeld := rfl
@[simp] theorem State.writeCache_seedHiHeld (s : State) (k : Nat) (v : Word) : (s.writeCache k v).seedHiHeld = s.seedHiHeld := rfl
@[simp] theorem State.writeCache_height (s : State) (k : Nat) (v : Word) : (s.writeCache k v).height = s.height := rfl
@[simp] theorem State.writeCache_heightLoHeld (s : State) (k : Nat) (v : Word) : (s.writeCache k v).heightLoHeld = s.heightLoHeld := rfl
@[simp] theorem State.writeCache_heightHiHeld (s : State) (k : Nat) (v : Word) : (s.writeCache k v).heightHiHeld = s.heightHiHeld := rfl
@[simp] theorem State.writeCache_cache (s : State) (k : Nat) (v : Word) : (s.writeCache k v).cache = writeWord s.cache (cacheAddr k) v := rfl
@[simp] theorem State.writeCache_core (s : State) (k : Nat) (v : Word) : (s.writeCache k v).core = s.core := rfl
@[simp] theorem State.writeCache_pc (s : State) (k : Nat) (v : Word) : (s.writeCache k v).pc = s.pc := rfl
@[simp] theorem State.writeCache_st (s : State) (k : Nat) (v : Word) : (s.writeCache k v).st = s.st := rfl
@[simp] theorem State.writeCache_werr (s : State) (k : Nat) (v : Word) : (s.writeCache k v).werr = s.werr := rfl
@[simp] theorem State.writeCache_errcode (s : State) (k : Nat) (v : Word) : (s.writeCache k v).errcode = s.errcode := rfl
@[simp] theorem State.writeCache_errinfo (s : State) (k : Nat) (v : Word) : (s.writeCache k v).errinfo = s.errinfo := rfl
@[simp] theorem State.writeCache_dataset (s : State) (k : Nat) (v : Word) : (s.writeCache k v).dataset = s.dataset := rfl
@[simp] theorem State.writeCache_resp (s : State) (k : Nat) (v : Word) : (s.writeCache k v).resp = s.resp := rfl
@[simp] theorem State.writeCache_env (s : State) (k : Nat) (v : Word) : (s.writeCache k v).env = s.env := rfl
@[simp] theorem State.writeCache_rdata (s : State) (k : Nat) (v : Word) : (s.writeCache k v).rdata = s.rdata := rfl
@[simp] theorem State.writeCache_port (s : State) (k : Nat) (v : Word) : (s.writeCache k v).port = s.port := rfl
@[simp] theorem State.writeCache_call (s : State) (k : Nat) (v : Word) : (s.writeCache k v).call = s.call := rfl
@[simp] theorem State.writeCache_freeCount (s : State) (k : Nat) (v : Word) : (s.writeCache k v).freeCount = s.freeCount := rfl

/-! ### `dropCore` -/

@[simp] theorem State.dropCore_cfg (s : State) : s.dropCore.cfg = s.cfg := rfl
@[simp] theorem State.dropCore_seed (s : State) : s.dropCore.seed = s.seed := rfl
@[simp] theorem State.dropCore_seedLoHeld (s : State) : s.dropCore.seedLoHeld = s.seedLoHeld := rfl
@[simp] theorem State.dropCore_seedHiHeld (s : State) : s.dropCore.seedHiHeld = s.seedHiHeld := rfl
@[simp] theorem State.dropCore_height (s : State) : s.dropCore.height = s.height := rfl
@[simp] theorem State.dropCore_heightLoHeld (s : State) : s.dropCore.heightLoHeld = s.heightLoHeld := rfl
@[simp] theorem State.dropCore_heightHiHeld (s : State) : s.dropCore.heightHiHeld = s.heightHiHeld := rfl
@[simp] theorem State.dropCore_cache (s : State) : s.dropCore.cache = s.cache := rfl
@[simp] theorem State.dropCore_core (s : State) : s.dropCore.core = Core.noValue s.cfg s.freeCount := rfl
@[simp] theorem State.dropCore_pc (s : State) : s.dropCore.pc = s.pc := rfl
@[simp] theorem State.dropCore_st (s : State) : s.dropCore.st = s.st := rfl
@[simp] theorem State.dropCore_werr (s : State) : s.dropCore.werr = s.werr := rfl
@[simp] theorem State.dropCore_errcode (s : State) : s.dropCore.errcode = s.errcode := rfl
@[simp] theorem State.dropCore_errinfo (s : State) : s.dropCore.errinfo = s.errinfo := rfl
@[simp] theorem State.dropCore_dataset (s : State) : s.dropCore.dataset = s.dataset := rfl
@[simp] theorem State.dropCore_resp (s : State) : s.dropCore.resp = none := rfl
@[simp] theorem State.dropCore_env (s : State) : s.dropCore.env = s.env := rfl
@[simp] theorem State.dropCore_rdata (s : State) : s.dropCore.rdata = s.rdata := rfl
@[simp] theorem State.dropCore_port (s : State) : s.dropCore.port = s.port := rfl
@[simp] theorem State.dropCore_call (s : State) : s.dropCore.call = s.call := rfl
@[simp] theorem State.dropCore_freeCount (s : State) : s.dropCore.freeCount = s.freeCount + 1 := rfl

/-! ### `enterHalt` -/

@[simp] theorem State.enterHalt_cfg (s : State) : s.enterHalt.cfg = s.cfg := rfl
@[simp] theorem State.enterHalt_seed (s : State) : s.enterHalt.seed = s.seed := rfl
@[simp] theorem State.enterHalt_seedLoHeld (s : State) : s.enterHalt.seedLoHeld = s.seedLoHeld := rfl
@[simp] theorem State.enterHalt_seedHiHeld (s : State) : s.enterHalt.seedHiHeld = s.seedHiHeld := rfl
@[simp] theorem State.enterHalt_height (s : State) : s.enterHalt.height = s.height := rfl
@[simp] theorem State.enterHalt_heightLoHeld (s : State) : s.enterHalt.heightLoHeld = s.heightLoHeld := rfl
@[simp] theorem State.enterHalt_heightHiHeld (s : State) : s.enterHalt.heightHiHeld = s.heightHiHeld := rfl
@[simp] theorem State.enterHalt_cache (s : State) : s.enterHalt.cache = s.cache := rfl
@[simp] theorem State.enterHalt_core (s : State) : s.enterHalt.core = s.core := rfl
@[simp] theorem State.enterHalt_pc (s : State) : s.enterHalt.pc = ⟨0x10#8, 0#8, 0#16⟩ := rfl
@[simp] theorem State.enterHalt_st (s : State) : s.enterHalt.st = .done := rfl
@[simp] theorem State.enterHalt_werr (s : State) : s.enterHalt.werr = s.werr := rfl
@[simp] theorem State.enterHalt_errcode (s : State) : s.enterHalt.errcode = s.errcode := rfl
@[simp] theorem State.enterHalt_errinfo (s : State) : s.enterHalt.errinfo = s.errinfo := rfl
@[simp] theorem State.enterHalt_dataset (s : State) : s.enterHalt.dataset = s.dataset := rfl
@[simp] theorem State.enterHalt_resp (s : State) : s.enterHalt.resp = s.resp := rfl
@[simp] theorem State.enterHalt_env (s : State) : s.enterHalt.env = s.env := rfl
@[simp] theorem State.enterHalt_rdata (s : State) : s.enterHalt.rdata = s.rdata := rfl
@[simp] theorem State.enterHalt_port (s : State) : s.enterHalt.port = s.port := rfl
@[simp] theorem State.enterHalt_call (s : State) : s.enterHalt.call = s.call := rfl
@[simp] theorem State.enterHalt_freeCount (s : State) : s.enterHalt.freeCount = s.freeCount := rfl

/-! ### `beginRun` -/

@[simp] theorem State.beginRun_cfg (s : State) : s.beginRun.cfg = s.cfg := rfl
@[simp] theorem State.beginRun_seed (s : State) : s.beginRun.seed = s.seed := rfl
@[simp] theorem State.beginRun_seedLoHeld (s : State) : s.beginRun.seedLoHeld = s.seedLoHeld := rfl
@[simp] theorem State.beginRun_seedHiHeld (s : State) : s.beginRun.seedHiHeld = s.seedHiHeld := rfl
@[simp] theorem State.beginRun_height (s : State) : s.beginRun.height = s.height := rfl
@[simp] theorem State.beginRun_heightLoHeld (s : State) : s.beginRun.heightLoHeld = s.heightLoHeld := rfl
@[simp] theorem State.beginRun_heightHiHeld (s : State) : s.beginRun.heightHiHeld = s.heightHiHeld := rfl
@[simp] theorem State.beginRun_cache (s : State) : s.beginRun.cache = s.cache := rfl
@[simp] theorem State.beginRun_core (s : State) : s.beginRun.core = Core.noValue s.cfg s.freeCount := rfl
@[simp] theorem State.beginRun_pc (s : State) : s.beginRun.pc = ⟨0x01#8, 0#8, 0#16⟩ := rfl
@[simp] theorem State.beginRun_st (s : State) : s.beginRun.st = .busy := rfl
@[simp] theorem State.beginRun_werr (s : State) : s.beginRun.werr = false := rfl
@[simp] theorem State.beginRun_errcode (s : State) : s.beginRun.errcode = 0#4 := rfl
@[simp] theorem State.beginRun_errinfo (s : State) : s.beginRun.errinfo = 0#32 := rfl
@[simp] theorem State.beginRun_dataset (s : State) : s.beginRun.dataset = s.dataset := rfl
@[simp] theorem State.beginRun_resp (s : State) : s.beginRun.resp = none := rfl
@[simp] theorem State.beginRun_env (s : State) : s.beginRun.env = s.env := rfl
@[simp] theorem State.beginRun_rdata (s : State) : s.beginRun.rdata = s.rdata := rfl
@[simp] theorem State.beginRun_port (s : State) : s.beginRun.port = s.port := rfl
@[simp] theorem State.beginRun_call (s : State) : s.beginRun.call = s.call := rfl
@[simp] theorem State.beginRun_freeCount (s : State) : s.beginRun.freeCount = s.freeCount + 1 := rfl

/-! ### `abandonRun` -/

@[simp] theorem State.abandonRun_cfg (s : State) : s.abandonRun.cfg = s.cfg := rfl
@[simp] theorem State.abandonRun_seed (s : State) : s.abandonRun.seed = s.seed := rfl
@[simp] theorem State.abandonRun_seedLoHeld (s : State) : s.abandonRun.seedLoHeld = s.seedLoHeld := rfl
@[simp] theorem State.abandonRun_seedHiHeld (s : State) : s.abandonRun.seedHiHeld = s.seedHiHeld := rfl
@[simp] theorem State.abandonRun_height (s : State) : s.abandonRun.height = s.height := rfl
@[simp] theorem State.abandonRun_heightLoHeld (s : State) : s.abandonRun.heightLoHeld = s.heightLoHeld := rfl
@[simp] theorem State.abandonRun_heightHiHeld (s : State) : s.abandonRun.heightHiHeld = s.heightHiHeld := rfl
@[simp] theorem State.abandonRun_cache (s : State) : s.abandonRun.cache = s.cache := rfl
@[simp] theorem State.abandonRun_core (s : State) : s.abandonRun.core = Core.noValue s.cfg s.freeCount := rfl
@[simp] theorem State.abandonRun_pc (s : State) : s.abandonRun.pc = ⟨0x00#8, 0#8, 0#16⟩ := rfl
@[simp] theorem State.abandonRun_st (s : State) : s.abandonRun.st = .idle := rfl
@[simp] theorem State.abandonRun_werr (s : State) : s.abandonRun.werr = s.werr := rfl
@[simp] theorem State.abandonRun_errcode (s : State) : s.abandonRun.errcode = s.errcode := rfl
@[simp] theorem State.abandonRun_errinfo (s : State) : s.abandonRun.errinfo = s.errinfo := rfl
@[simp] theorem State.abandonRun_dataset (s : State) : s.abandonRun.dataset = s.dataset := rfl
@[simp] theorem State.abandonRun_resp (s : State) : s.abandonRun.resp = none := rfl
@[simp] theorem State.abandonRun_env (s : State) : s.abandonRun.env = s.env := rfl
@[simp] theorem State.abandonRun_rdata (s : State) : s.abandonRun.rdata = s.rdata := rfl
@[simp] theorem State.abandonRun_port (s : State) : s.abandonRun.port = s.port := rfl
@[simp] theorem State.abandonRun_call (s : State) : s.abandonRun.call = s.call := rfl
@[simp] theorem State.abandonRun_freeCount (s : State) : s.abandonRun.freeCount = s.freeCount + 1 := rfl

/-! ### `lookupFault` -/

@[simp] theorem State.lookupFault_cfg (s : State) (cause : BitVec 4) (index : Word) : (s.lookupFault cause index).cfg = s.cfg := rfl
@[simp] theorem State.lookupFault_seed (s : State) (cause : BitVec 4) (index : Word) : (s.lookupFault cause index).seed = s.seed := rfl
@[simp] theorem State.lookupFault_seedLoHeld (s : State) (cause : BitVec 4) (index : Word) : (s.lookupFault cause index).seedLoHeld = s.seedLoHeld := rfl
@[simp] theorem State.lookupFault_seedHiHeld (s : State) (cause : BitVec 4) (index : Word) : (s.lookupFault cause index).seedHiHeld = s.seedHiHeld := rfl
@[simp] theorem State.lookupFault_height (s : State) (cause : BitVec 4) (index : Word) : (s.lookupFault cause index).height = s.height := rfl
@[simp] theorem State.lookupFault_heightLoHeld (s : State) (cause : BitVec 4) (index : Word) : (s.lookupFault cause index).heightLoHeld = s.heightLoHeld := rfl
@[simp] theorem State.lookupFault_heightHiHeld (s : State) (cause : BitVec 4) (index : Word) : (s.lookupFault cause index).heightHiHeld = s.heightHiHeld := rfl
@[simp] theorem State.lookupFault_cache (s : State) (cause : BitVec 4) (index : Word) : (s.lookupFault cause index).cache = s.cache := rfl
@[simp] theorem State.lookupFault_core (s : State) (cause : BitVec 4) (index : Word) : (s.lookupFault cause index).core = Core.noValue s.cfg s.freeCount := rfl
@[simp] theorem State.lookupFault_pc (s : State) (cause : BitVec 4) (index : Word) : (s.lookupFault cause index).pc = ⟨0x11#8, 0#8, 0#16⟩ := rfl
@[simp] theorem State.lookupFault_st (s : State) (cause : BitVec 4) (index : Word) : (s.lookupFault cause index).st = .error := rfl
@[simp] theorem State.lookupFault_werr (s : State) (cause : BitVec 4) (index : Word) : (s.lookupFault cause index).werr = s.werr := rfl
@[simp] theorem State.lookupFault_errcode (s : State) (cause : BitVec 4) (index : Word) : (s.lookupFault cause index).errcode = cause := rfl
@[simp] theorem State.lookupFault_errinfo (s : State) (cause : BitVec 4) (index : Word) : (s.lookupFault cause index).errinfo = index := rfl
@[simp] theorem State.lookupFault_dataset (s : State) (cause : BitVec 4) (index : Word) : (s.lookupFault cause index).dataset = s.dataset := rfl
@[simp] theorem State.lookupFault_resp (s : State) (cause : BitVec 4) (index : Word) : (s.lookupFault cause index).resp = none := rfl
@[simp] theorem State.lookupFault_env (s : State) (cause : BitVec 4) (index : Word) : (s.lookupFault cause index).env = s.env := rfl
@[simp] theorem State.lookupFault_rdata (s : State) (cause : BitVec 4) (index : Word) : (s.lookupFault cause index).rdata = s.rdata := rfl
@[simp] theorem State.lookupFault_port (s : State) (cause : BitVec 4) (index : Word) : (s.lookupFault cause index).port = s.port := rfl
@[simp] theorem State.lookupFault_call (s : State) (cause : BitVec 4) (index : Word) : (s.lookupFault cause index).call = s.call := rfl
@[simp] theorem State.lookupFault_freeCount (s : State) (cause : BitVec 4) (index : Word) : (s.lookupFault cause index).freeCount = s.freeCount + 1 := rfl

/-! ### `takeItem` -/

@[simp] theorem State.takeItem_cfg (s : State) (words : List Word) : (s.takeItem words).cfg = s.cfg := rfl
@[simp] theorem State.takeItem_seed (s : State) (words : List Word) : (s.takeItem words).seed = s.seed := rfl
@[simp] theorem State.takeItem_seedLoHeld (s : State) (words : List Word) : (s.takeItem words).seedLoHeld = s.seedLoHeld := rfl
@[simp] theorem State.takeItem_seedHiHeld (s : State) (words : List Word) : (s.takeItem words).seedHiHeld = s.seedHiHeld := rfl
@[simp] theorem State.takeItem_height (s : State) (words : List Word) : (s.takeItem words).height = s.height := rfl
@[simp] theorem State.takeItem_heightLoHeld (s : State) (words : List Word) : (s.takeItem words).heightLoHeld = s.heightLoHeld := rfl
@[simp] theorem State.takeItem_heightHiHeld (s : State) (words : List Word) : (s.takeItem words).heightHiHeld = s.heightHiHeld := rfl
@[simp] theorem State.takeItem_cache (s : State) (words : List Word) : (s.takeItem words).cache = s.cache := rfl
@[simp] theorem State.takeItem_core (s : State) (words : List Word) : (s.takeItem words).core = { s.core with item := words, itemLen := words.length, wpl := words.length / s.cfg.numLanes } := rfl
@[simp] theorem State.takeItem_pc (s : State) (words : List Word) : (s.takeItem words).pc = s.pc := rfl
@[simp] theorem State.takeItem_st (s : State) (words : List Word) : (s.takeItem words).st = s.st := rfl
@[simp] theorem State.takeItem_werr (s : State) (words : List Word) : (s.takeItem words).werr = s.werr := rfl
@[simp] theorem State.takeItem_errcode (s : State) (words : List Word) : (s.takeItem words).errcode = s.errcode := rfl
@[simp] theorem State.takeItem_errinfo (s : State) (words : List Word) : (s.takeItem words).errinfo = s.errinfo := rfl
@[simp] theorem State.takeItem_dataset (s : State) (words : List Word) : (s.takeItem words).dataset = s.dataset := rfl
@[simp] theorem State.takeItem_resp (s : State) (words : List Word) : (s.takeItem words).resp = none := rfl
@[simp] theorem State.takeItem_env (s : State) (words : List Word) : (s.takeItem words).env = s.env := rfl
@[simp] theorem State.takeItem_rdata (s : State) (words : List Word) : (s.takeItem words).rdata = s.rdata := rfl
@[simp] theorem State.takeItem_port (s : State) (words : List Word) : (s.takeItem words).port = s.port := rfl
@[simp] theorem State.takeItem_call (s : State) (words : List Word) : (s.takeItem words).call = s.call := rfl
@[simp] theorem State.takeItem_freeCount (s : State) (words : List Word) : (s.takeItem words).freeCount = s.freeCount := rfl

/-! ### `resetInput` -/

@[simp] theorem State.resetInput_cfg (s : State) : s.resetInput.cfg = s.cfg := rfl
@[simp] theorem State.resetInput_seed (s : State) : s.resetInput.seed = (State.resetWith s.cfg).seed := rfl
@[simp] theorem State.resetInput_seedLoHeld (s : State) : s.resetInput.seedLoHeld = (State.resetWith s.cfg).seedLoHeld := rfl
@[simp] theorem State.resetInput_seedHiHeld (s : State) : s.resetInput.seedHiHeld = (State.resetWith s.cfg).seedHiHeld := rfl
@[simp] theorem State.resetInput_height (s : State) : s.resetInput.height = (State.resetWith s.cfg).height := rfl
@[simp] theorem State.resetInput_heightLoHeld (s : State) : s.resetInput.heightLoHeld = (State.resetWith s.cfg).heightLoHeld := rfl
@[simp] theorem State.resetInput_heightHiHeld (s : State) : s.resetInput.heightHiHeld = (State.resetWith s.cfg).heightHiHeld := rfl
@[simp] theorem State.resetInput_cache (s : State) : s.resetInput.cache = (State.resetWith s.cfg).cache := rfl
@[simp] theorem State.resetInput_core (s : State) : s.resetInput.core = (State.resetWith s.cfg).core := rfl
@[simp] theorem State.resetInput_pc (s : State) : s.resetInput.pc = (State.resetWith s.cfg).pc := rfl
@[simp] theorem State.resetInput_st (s : State) : s.resetInput.st = (State.resetWith s.cfg).st := rfl
@[simp] theorem State.resetInput_werr (s : State) : s.resetInput.werr = (State.resetWith s.cfg).werr := rfl
@[simp] theorem State.resetInput_errcode (s : State) : s.resetInput.errcode = (State.resetWith s.cfg).errcode := rfl
@[simp] theorem State.resetInput_errinfo (s : State) : s.resetInput.errinfo = (State.resetWith s.cfg).errinfo := rfl
@[simp] theorem State.resetInput_dataset (s : State) : s.resetInput.dataset = s.dataset := rfl
@[simp] theorem State.resetInput_resp (s : State) : s.resetInput.resp = (State.resetWith s.cfg).resp := rfl
@[simp] theorem State.resetInput_env (s : State) : s.resetInput.env = s.env := rfl
@[simp] theorem State.resetInput_rdata (s : State) : s.resetInput.rdata = s.rdata := rfl
@[simp] theorem State.resetInput_port (s : State) : s.resetInput.port = s.port := rfl
@[simp] theorem State.resetInput_call (s : State) : s.resetInput.call = none := rfl
@[simp] theorem State.resetInput_freeCount (s : State) : s.resetInput.freeCount = s.freeCount := rfl

/-! ### `drawGs` -/

@[simp] theorem drawGs_mix (c : Cfg) (k : Core) : (drawGs c k).2.mix = k.mix := rfl
@[simp] theorem drawGs_gs (c : Cfg) (k : Core) : (drawGs c k).2.gs = (kissNext c k.gs).2 := rfl
@[simp] theorem drawGs_gl (c : Cfg) (k : Core) : (drawGs c k).2.gl = k.gl := rfl
@[simp] theorem drawGs_zb (c : Cfg) (k : Core) : (drawGs c k).2.zb = k.zb := rfl
@[simp] theorem drawGs_wb (c : Cfg) (k : Core) : (drawGs c k).2.wb = k.wb := rfl
@[simp] theorem drawGs_epoch (c : Cfg) (k : Core) : (drawGs c k).2.epoch = k.epoch := rfl
@[simp] theorem drawGs_dstSeq (c : Cfg) (k : Core) : (drawGs c k).2.dstSeq = k.dstSeq := rfl
@[simp] theorem drawGs_srcSeq (c : Cfg) (k : Core) : (drawGs c k).2.srcSeq = k.srcSeq := rfl
@[simp] theorem drawGs_dstCnt (c : Cfg) (k : Core) : (drawGs c k).2.dstCnt = k.dstCnt := rfl
@[simp] theorem drawGs_srcCnt (c : Cfg) (k : Core) : (drawGs c k).2.srcCnt = k.srcCnt := rfl
@[simp] theorem drawGs_itemIdx (c : Cfg) (k : Core) : (drawGs c k).2.itemIdx = k.itemIdx := rfl
@[simp] theorem drawGs_item (c : Cfg) (k : Core) : (drawGs c k).2.item = k.item := rfl
@[simp] theorem drawGs_itemLen (c : Cfg) (k : Core) : (drawGs c k).2.itemLen = k.itemLen := rfl
@[simp] theorem drawGs_wpl (c : Cfg) (k : Core) : (drawGs c k).2.wpl = k.wpl := rfl
@[simp] theorem drawGs_pdst (c : Cfg) (k : Core) : (drawGs c k).2.pdst = k.pdst := rfl
@[simp] theorem drawGs_psel (c : Cfg) (k : Core) : (drawGs c k).2.psel = k.psel := rfl
@[simp] theorem drawGs_laneHash (c : Cfg) (k : Core) : (drawGs c k).2.laneHash = k.laneHash := rfl
@[simp] theorem drawGs_dig (c : Cfg) (k : Core) : (drawGs c k).2.dig = k.dig := rfl
@[simp] theorem drawGs_digBytes (c : Cfg) (k : Core) : (drawGs c k).2.digBytes = k.digBytes := rfl

/-! ### `nextSrc` -/

@[simp] theorem nextSrc_mix (c : Cfg) (k : Core) : (nextSrc c k).2.mix = k.mix := rfl
@[simp] theorem nextSrc_gs (c : Cfg) (k : Core) : (nextSrc c k).2.gs = k.gs := rfl
@[simp] theorem nextSrc_gl (c : Cfg) (k : Core) : (nextSrc c k).2.gl = k.gl := rfl
@[simp] theorem nextSrc_zb (c : Cfg) (k : Core) : (nextSrc c k).2.zb = k.zb := rfl
@[simp] theorem nextSrc_wb (c : Cfg) (k : Core) : (nextSrc c k).2.wb = k.wb := rfl
@[simp] theorem nextSrc_epoch (c : Cfg) (k : Core) : (nextSrc c k).2.epoch = k.epoch := rfl
@[simp] theorem nextSrc_dstSeq (c : Cfg) (k : Core) : (nextSrc c k).2.dstSeq = k.dstSeq := rfl
@[simp] theorem nextSrc_srcSeq (c : Cfg) (k : Core) : (nextSrc c k).2.srcSeq = k.srcSeq := rfl
@[simp] theorem nextSrc_dstCnt (c : Cfg) (k : Core) : (nextSrc c k).2.dstCnt = k.dstCnt := rfl
@[simp] theorem nextSrc_srcCnt (c : Cfg) (k : Core) : (nextSrc c k).2.srcCnt = k.srcCnt + 1#32 := rfl
@[simp] theorem nextSrc_itemIdx (c : Cfg) (k : Core) : (nextSrc c k).2.itemIdx = k.itemIdx := rfl
@[simp] theorem nextSrc_item (c : Cfg) (k : Core) : (nextSrc c k).2.item = k.item := rfl
@[simp] theorem nextSrc_itemLen (c : Cfg) (k : Core) : (nextSrc c k).2.itemLen = k.itemLen := rfl
@[simp] theorem nextSrc_wpl (c : Cfg) (k : Core) : (nextSrc c k).2.wpl = k.wpl := rfl
@[simp] theorem nextSrc_pdst (c : Cfg) (k : Core) : (nextSrc c k).2.pdst = k.pdst := rfl
@[simp] theorem nextSrc_psel (c : Cfg) (k : Core) : (nextSrc c k).2.psel = k.psel := rfl
@[simp] theorem nextSrc_laneHash (c : Cfg) (k : Core) : (nextSrc c k).2.laneHash = k.laneHash := rfl
@[simp] theorem nextSrc_dig (c : Cfg) (k : Core) : (nextSrc c k).2.dig = k.dig := rfl
@[simp] theorem nextSrc_digBytes (c : Cfg) (k : Core) : (nextSrc c k).2.digBytes = k.digBytes := rfl

/-! ### `nextDst` -/

@[simp] theorem nextDst_mix (c : Cfg) (k : Core) : (nextDst c k).2.mix = k.mix := rfl
@[simp] theorem nextDst_gs (c : Cfg) (k : Core) : (nextDst c k).2.gs = k.gs := rfl
@[simp] theorem nextDst_gl (c : Cfg) (k : Core) : (nextDst c k).2.gl = k.gl := rfl
@[simp] theorem nextDst_zb (c : Cfg) (k : Core) : (nextDst c k).2.zb = k.zb := rfl
@[simp] theorem nextDst_wb (c : Cfg) (k : Core) : (nextDst c k).2.wb = k.wb := rfl
@[simp] theorem nextDst_epoch (c : Cfg) (k : Core) : (nextDst c k).2.epoch = k.epoch := rfl
@[simp] theorem nextDst_dstSeq (c : Cfg) (k : Core) : (nextDst c k).2.dstSeq = k.dstSeq := rfl
@[simp] theorem nextDst_srcSeq (c : Cfg) (k : Core) : (nextDst c k).2.srcSeq = k.srcSeq := rfl
@[simp] theorem nextDst_dstCnt (c : Cfg) (k : Core) : (nextDst c k).2.dstCnt = k.dstCnt + 1#32 := rfl
@[simp] theorem nextDst_srcCnt (c : Cfg) (k : Core) : (nextDst c k).2.srcCnt = k.srcCnt := rfl
@[simp] theorem nextDst_itemIdx (c : Cfg) (k : Core) : (nextDst c k).2.itemIdx = k.itemIdx := rfl
@[simp] theorem nextDst_item (c : Cfg) (k : Core) : (nextDst c k).2.item = k.item := rfl
@[simp] theorem nextDst_itemLen (c : Cfg) (k : Core) : (nextDst c k).2.itemLen = k.itemLen := rfl
@[simp] theorem nextDst_wpl (c : Cfg) (k : Core) : (nextDst c k).2.wpl = k.wpl := rfl
@[simp] theorem nextDst_pdst (c : Cfg) (k : Core) : (nextDst c k).2.pdst = k.pdst := rfl
@[simp] theorem nextDst_psel (c : Cfg) (k : Core) : (nextDst c k).2.psel = k.psel := rfl
@[simp] theorem nextDst_laneHash (c : Cfg) (k : Core) : (nextDst c k).2.laneHash = k.laneHash := rfl
@[simp] theorem nextDst_dig (c : Cfg) (k : Core) : (nextDst c k).2.dig = k.dig := rfl
@[simp] theorem nextDst_digBytes (c : Cfg) (k : Core) : (nextDst c k).2.digBytes = k.digBytes := rfl

/-! ### `withGen` -/

@[simp] theorem State.withGen_gs (s : State) (g : Kiss) : s.withGen .gs g = s.withCore { s.core with gs := g } := rfl
@[simp] theorem State.withGen_gl (s : State) (g : Kiss) : s.withGen .gl g = s.withCore { s.core with gl := g } := rfl
@[simp] theorem State.gen_gs (s : State) : s.gen .gs = s.core.gs := rfl
@[simp] theorem State.gen_gl (s : State) : s.gen .gl = s.core.gl := rfl

end Sys2Proof.Machine
end

