-- ==== Sys2Proof/Laws/Ops.lean ====
section
/-! SUPPORT. One lemma for each shared operation that says what it can do, so that proofs about the meanings cite it and do not
unfold the operation. -/

namespace Sys2Proof.Machine

open Sys2Proof

/-! ### Lists -/

/-- Reading a list with one entry replaced. -/
theorem getD_set {α : Type} (xs : List α) (i n : Nat) (v d : α) :
    (xs.set i v).getD n d = if n = i ∧ i < xs.length then v else xs.getD n d := by
  simp only [List.getD_eq_getElem?_getD, List.getElem?_set]
  by_cases h : i = n
  · subst h
    by_cases hl : i < xs.length
    · simp [hl]
    · simp [hl]
  · simp [h, Ne.symm h]

/-- An entry read inside the list is one of its members. -/
theorem getD_mem {α : Type} {xs : List α} {n : Nat} (d : α) (h : n < xs.length) : xs.getD n d ∈ xs := by
  simp [List.getD_eq_getElem?_getD, h]

/-- What holds of every entry and of the default holds of every read. -/
theorem getD_forall {α : Type} {p : α → Prop} {xs : List α} {d : α} (h : ∀ x ∈ xs, p x) (hd : p d) (n : Nat) :
    p (xs.getD n d) := by
  by_cases hn : n < xs.length
  · exact h _ (getD_mem d hn)
  · simpa [List.getD_eq_getElem?_getD, Nat.le_of_not_lt hn] using hd

/-- What holds of every entry and of the new one holds of every entry after a replacement. -/
theorem set_forall {α : Type} {p : α → Prop} {xs : List α} {i : Nat} {v : α} (h : ∀ x ∈ xs, p x) (hv : p v) :
    ∀ x ∈ xs.set i v, p x := by
  intro x hx
  rcases List.mem_or_eq_of_mem_set hx with hx | rfl
  · exact h x hx
  · exact hv

/-! ### Folds and draws -/

/-- The fold is a left fold of the FNV-1a step (R122). -/
theorem fnvFold_eq_foldl (c : Cfg) (h : Word) (ds : List Word) : fnvFold c h ds = ds.foldl (fnv1a c) h := by
  induction ds generalizing h with
  | nil => rfl
  | cons d ds ih => simp [fnvFold, ih]

@[simp] theorem kissDraws_length (c : Cfg) (n : Nat) (g : Kiss) : (kissDraws c n g).1.length = n := by
  induction n generalizing g with
  | zero => rfl
  | succ n ih => simp [kissDraws, ih]

/-- `n` draws leave the generator advanced `n` times. -/
theorem kissDraws_snd (c : Cfg) (n : Nat) (g : Kiss) : (kissDraws c n g).2 = (kissAdvance c)^[n] g := by
  induction n generalizing g with
  | zero => rfl
  | succ n ih => simp [kissDraws, ih, Function.iterate_succ_apply]

/-- Draw number `k + 1` is the output of the generator advanced `k + 1` times. -/
theorem kissDraws_getD (c : Cfg) (n : Nat) (g : Kiss) (k : Nat) (hk : k < n) :
    (kissDraws c n g).1.getD k 0#32 = kissOut ((kissAdvance c)^[k + 1] g) := by
  induction n generalizing g k with
  | zero => omega
  | succ n ih =>
    cases k with
    | zero => simp [kissDraws]
    | succ k =>
      have := ih (kissAdvance c g) k (by omega)
      simpa [kissDraws, Function.iterate_succ_apply] using this

@[simp] theorem kissNext_fst (c : Cfg) (g : Kiss) : (kissNext c g).1 = kissOut (kissAdvance c g) := rfl
@[simp] theorem kissNext_snd (c : Cfg) (g : Kiss) : (kissNext c g).2 = kissAdvance c g := rfl

/-! ### The lanes -/

@[simp] theorem mixLanes_length (mix : List (List Word)) (dst : Nat) (f : Nat → List Word → Word) :
    (mixLanes mix dst f).length = mix.length := by simp [mixLanes]

/-- The row of a lane after an operation of all lanes: its own row with register `dst` replaced (R199). -/
theorem mixLanes_getD (mix : List (List Word)) (dst : Nat) (f : Nat → List Word → Word) (l : Nat)
    (h : l < mix.length) :
    (mixLanes mix dst f).getD l [] = (mix.getD l []).set dst (f l (mix.getD l [])) := by
  simp [mixLanes, List.getD_eq_getElem?_getD, h]

/-- A register after an operation of all lanes. -/
theorem mixReg_mixLanes (mix : List (List Word)) (dst : Nat) (f : Nat → List Word → Word) (l k : Nat)
    (h : l < mix.length) (hk : k < (mix.getD l []).length) :
    mixReg (mixLanes mix dst f) l k = if k = dst then f l (mix.getD l []) else mixReg mix l k := by
  unfold mixReg
  rw [mixLanes_getD _ _ _ _ h, getD_set]
  by_cases hkd : k = dst
  · rw [if_pos ⟨hkd, hkd ▸ hk⟩, if_pos hkd]
  · rw [if_neg (fun e => hkd e.1), if_neg hkd]

/-- An operation of all lanes keeps the length of every row. -/
theorem mixLanes_rows {mix : List (List Word)} {n : Nat} (dst : Nat) (f : Nat → List Word → Word)
    (h : ∀ row ∈ mix, row.length = n) : ∀ row ∈ mixLanes mix dst f, row.length = n := by
  intro row hrow
  simp only [mixLanes, List.mem_mapIdx] at hrow
  obtain ⟨l, hl, rfl⟩ := hrow
  simpa using h _ (List.getElem_mem hl)

/-! ### The permutation files -/

@[simp] theorem swapEntries_length (xs : List Nat) (i j : Nat) : (swapEntries xs i j).length = xs.length := by
  simp [swapEntries]

/-- An exchange of two entries inside the file (R152). -/
theorem swapEntries_getD (xs : List Nat) (i j n : Nat) (hi : i < xs.length) (hj : j < xs.length) :
    (swapEntries xs i j).getD n 0 =
      if n = j then xs.getD i 0 else if n = i then xs.getD j 0 else xs.getD n 0 := by
  simp only [swapEntries, getD_set, List.length_set, hi, hj, and_true]

/-- An exchange of two entries inside the file permutes it. -/
theorem swapEntries_perm (xs : List Nat) (i j : Nat) (hi : i < xs.length) (hj : j < xs.length) :
    (swapEntries xs i j).Perm xs := by
  have e : swapEntries xs i j = (xs.set i xs[j]).set j xs[i] := by
    simp [swapEntries, List.getD_eq_getElem?_getD, hi, hj]
  rw [e]
  exact List.set_set_perm hi hj

/-- NSRC of a file of legal indices gives a legal index (R160). -/
theorem nextSrc_lt {c : Cfg} {k : Core} (hb : ∀ x ∈ k.srcSeq, x < c.numRegs) (hr : 2 ≤ c.numRegs) : (nextSrc c k).1 < c.numRegs :=
  getD_forall (p := (· < c.numRegs)) hb (by omega) _

/-- NDST of a file of legal indices gives a legal index (R161). -/
theorem nextDst_lt {c : Cfg} {k : Core} (hb : ∀ x ∈ k.dstSeq, x < c.numRegs) (hr : 2 ≤ c.numRegs) :
    (nextDst c k).1 < c.numRegs :=
  getD_forall (p := (· < c.numRegs)) hb (by omega) _

/-! ### Well-formed configurations -/

/-- R9, condition by condition. -/
theorem Cfg.wf_iff (c : Cfg) : c.wf = true ↔
    1 ≤ c.numLanes ∧ c.numLanes ≤ 65535 ∧ 2 ≤ c.numRegs ∧ c.numRegs ≤ 65535 ∧ c.numCacheAccesses ≤ 65535 ∧
      c.numMathOperations ≤ 65535 ∧ 2 ≤ c.cacheSize ∧ c.cacheSize ≤ 2 ^ 29 ∧ 1 ≤ c.cacheWordCount ∧
      c.cacheWordCount ≤ c.cacheSize ∧ 1 ≤ c.periodLength ∧ c.periodLength < 2 ^ 64 ∧
      c.itemMax / c.numLanes ≤ 65535 := by
  simp only [Cfg.wf, decide_eq_true_eq]

/-- On a well-formed configuration every cache offset is inside the cache (R62). -/
theorem cacheOffset_lt {c : Cfg} (h : c.wf = true) (v : Word) : cacheOffset c v < c.cacheSize := by
  have h' := (Cfg.wf_iff c).1 h
  exact Nat.lt_of_lt_of_le (Nat.mod_lt _ (by omega)) (by omega)

/-- The guard of CACHEOP holds on a well-formed configuration. -/
theorem cacheop_guard {c : Cfg} (h : c.wf = true) (mix : List (List Word)) (src : Nat) :
    mix.all (fun row => decide (cacheOffset c (row.getD src 0#32) < c.cacheSize)) = true := by
  simp [List.all_eq_true, cacheOffset_lt h]

/-- `(l ^ r) % numLanes * WPL + i` is below `numLanes * WPL` (R66). -/
theorem laneOffset_add_lt {c : Cfg} (hn : 1 ≤ c.numLanes) {wpl i : Nat} (hi : i < wpl) (l r : Nat) :
    laneOffset c wpl l r + i < c.numLanes * wpl := by
  have h : (l ^^^ r) % c.numLanes + 1 ≤ c.numLanes := Nat.mod_lt _ (by omega)
  calc laneOffset c wpl l r + i < laneOffset c wpl l r + wpl := by omega
    _ = ((l ^^^ r) % c.numLanes + 1) * wpl := by rw [laneOffset, Nat.add_mul, Nat.one_mul]
    _ ≤ c.numLanes * wpl := Nat.mul_le_mul_right _ h

/-- The guard of DAGMERGE holds where the item fits the buffer (R66). -/
theorem dagmerge_guard {c : Cfg} (hn : 1 ≤ c.numLanes) {wpl i : Nat} (hi : i < wpl) (hm : c.numLanes * wpl ≤ c.itemMax)
    (mix : List (List Word)) (r : Nat) :
    (List.range mix.length).all (fun l => decide (laneOffset c wpl l r + i < c.itemMax)) = true := by
  simp only [List.all_eq_true, decide_eq_true_eq]
  exact fun l _ => Nat.lt_of_lt_of_le (laneOffset_add_lt hn hi l r) hm

/-! ### Core state at reset and without a value -/

theorem Core.reset_shape {c : Cfg} (h : c.wf = true) : (Core.reset c).Shape c := by
  have h' := (Cfg.wf_iff c).1 h
  refine ⟨by simp [Core.reset], ?_, by simp [Core.reset], ?_, by simp [Core.reset], ?_, rfl, by simp [Core.reset],
    by simp [Core.reset], by simp [Core.reset], ?_, by simp [Core.reset], by simp [Core.reset]⟩
  all_goals intro x hx
  all_goals have hx := (List.mem_replicate.1 hx).2
  · simp [hx]
  all_goals omega

@[simp] theorem freeWords_length (t : FreeTag) (count n : Nat) : (freeWords t count n).length = n := by
  simp [freeWords]

theorem mod_map_lt {n : Nat} (hn : 0 < n) (ws : List Word) : ∀ x ∈ ws.map (fun w => w.toNat % n), x < n := by
  intro x hx
  obtain ⟨w, -, rfl⟩ := List.mem_map.1 hx
  exact Nat.mod_lt _ hn

/-- Core state that holds no value still has the lengths and bounds of the spec. -/
theorem Core.noValue_shape {c : Cfg} (h : c.wf = true) (n : Nat) : (Core.noValue c n).Shape c := by
  have h' := (Cfg.wf_iff c).1 h
  have hr : 0 < c.numRegs := by omega
  refine ⟨by simp [Core.noValue], ?_, by simp [Core.noValue], mod_map_lt hr _, by simp [Core.noValue],
    mod_map_lt hr _, by simp [Core.noValue], ?_, rfl, by simp [Core.noValue], mod_map_lt hr _, by simp [Core.noValue],
    by simp [Core.noValue]⟩
  · intro row hrow
    obtain ⟨l, -, rfl⟩ := List.mem_map.1 hrow
    simp
  · exact Nat.lt_succ_iff.1 (Nat.mod_lt _ (Nat.succ_pos _))

/-! ### The inputs, the lookup port, the host -/

/-- The inputs hold a value exactly when the four halves and every cache word do (R47). -/
theorem State.inputsHeld_congr {s t : State} (hc : t.cfg = s.cfg) (hm : t.cache = s.cache)
    (h1 : t.seedLoHeld = s.seedLoHeld) (h2 : t.seedHiHeld = s.seedHiHeld) (h3 : t.heightLoHeld = s.heightLoHeld)
    (h4 : t.heightHiHeld = s.heightHiHeld) : t.inputsHeld = s.inputsHeld := by
  simp [State.inputsHeld, State.cacheHeld, hc, hm, h1, h2, h3, h4]

/-- When a request is outstanding (R45, R182). -/
theorem State.lookupOutstanding_iff (s : State) :
    s.lookupOutstanding = true ↔ s.st = .busy ∧ s.pc.op = 0x08#8 ∧ s.resp = none := by
  simp [State.lookupOutstanding, and_assoc]

/-- What the responder's turn does (R70, R71, R73). -/
theorem State.takeAnswer_cases (s : State) :
    (s.st = .busy ∧ s.pc.op = 0x08#8 ∧ s.resp = none ∧
      s.takeAnswer = { s with resp := some (s.dataset.lookup s.core.itemIdx) }) ∨ s.takeAnswer = s := by
  unfold State.takeAnswer
  split
  · rename_i h
    obtain ⟨h1, h2, h3⟩ := s.lookupOutstanding_iff.1 h
    exact .inl ⟨h1, h2, h3, rfl⟩
  · exact .inr rfl

/-- A host read changes nothing but the data read and the counter of free values (R75). -/
theorem State.hostRead_frame (s : State) (offset : Word) (width : Nat) :
    ∃ v n, s.hostRead offset width = { s with rdata := v, freeCount := n } := by
  unfold State.hostRead State.readHalf
  repeat' split
  all_goals exact ⟨_, _, rfl⟩

/-- What a host write to a register other than `CTRL` can do (R254, R255, R260). -/
theorem State.hostWriteData_cases (s : State) (reg : WindowReg) (v : Word) :
    s.hostWriteData reg v = s.refuseWrite ∨
    (s.st ≠ .busy ∧ ((∃ x b, s.hostWriteData reg v = { s with seed := x, seedLoHeld := true, seedHiHeld := b }) ∨
      (∃ x b, s.hostWriteData reg v = { s with seed := x, seedHiHeld := true, seedLoHeld := b }) ∨
      (∃ x b, s.hostWriteData reg v = { s with height := x, heightLoHeld := true, heightHiHeld := b }) ∨
      (∃ x b, s.hostWriteData reg v = { s with height := x, heightHiHeld := true, heightLoHeld := b }) ∨
      ∃ k, reg = .cacheWord k ∧ s.hostWriteData reg v = s.writeCache k v)) := by
  unfold State.hostWriteData
  split
  · exact .inl rfl
  · rename_i h
    cases reg
    case seedLo => exact .inr ⟨h, .inl ⟨_, _, rfl⟩⟩
    case seedHi => exact .inr ⟨h, .inr (.inl ⟨_, _, rfl⟩)⟩
    case heightLo => exact .inr ⟨h, .inr (.inr (.inl ⟨_, _, rfl⟩))⟩
    case heightHi => exact .inr ⟨h, .inr (.inr (.inr (.inl ⟨_, _, rfl⟩)))⟩
    case cacheWord k => exact .inr ⟨h, .inr (.inr (.inr (.inr ⟨k, rfl, rfl⟩)))⟩
    all_goals exact .inl rfl

/-- A cache word the window names is inside the cache (R250). -/
theorem windowReg_cacheWord {c : Cfg} {offset : Word} {k : Nat} (h : windowReg c offset = .cacheWord k) :
    k < c.cacheSize := by
  unfold windowReg at h
  repeat' split at h
  all_goals first
    | (injection h with h; omega)
    | cases h

/-- The recorded cause is 1 or 2 (R272). -/
theorem recordedCause_cases (w : BitVec 2) : recordedCause w = 1#4 ∨ recordedCause w = 2#4 := by
  unfold recordedCause
  split
  · exact .inr rfl
  · exact .inl rfl

end Sys2Proof.Machine
end

