-- ==== Sys2Proof/Laws/PerInstr.lean ====
section
/-! SUPPORT. The family `OpCode`: the word of every operation carries the number its row of the opcode table has (R92, R93,
R94, R96). -/

namespace Sys2Proof.Laws.OpCode

open Sys2Proof

/-- The number of the row: `OP` of formats S and P, `CMD` of format H, the row of a selector table. -/
def number : Instr → Nat
  | .idle => 0x00
  | .mixseed => 0x01
  | .laneseed _ => 0x02
  | .lanefill _ => 0x03
  | .epoch => 0x04
  | .schseed => 0x05
  | .fyswap _ => 0x06
  | .itemsel _ => 0x07
  | .lookup _ => 0x08
  | .cacheop _ _ => 0x09
  | .mathop _ _ => 0x0A
  | .dagplan _ _ => 0x0B
  | .dagmerge _ _ => 0x0C
  | .lanehash _ => 0x0D
  | .digfold _ => 0x0E
  | .serial => 0x0F
  | .halt => 0x10
  | .fault => 0x11
  | .fnv1a => 0x20
  | .kseed => 0x21
  | .knext => 0x22
  | .nsrc => 0x23
  | .ndst => 0x24
  | .merge => 0x25
  | .math => 0x26
  | .nop => 0
  | .start => 1
  | .abort => 2
  | .mergeRow0 _ => 0
  | .mergeRow1 _ => 1
  | .mergeRow2 _ => 2
  | .mergeRow3 _ => 3
  | .mathRow0 _ => 0
  | .mathRow1 _ => 1
  | .mathRow2 _ => 2
  | .mathRow3 _ => 3
  | .mathRow4 _ => 4
  | .mathRow5 _ => 5
  | .mathRow6 _ => 6
  | .mathRow7 _ => 7
  | .mathRow8 _ => 8
  | .mathRow9 _ => 9
  | .mathRow10 _ => 10

/-- Where a word of a format carries the number of its row. -/
def numberIn : Format → Word → Nat
  | .S, w | .P, w => (opField w).toNat
  | .H, w => w.toNat
  | .mergeSelector, w => w.toNat % 4
  | .mathSelector, w => w.toNat % 11

/-- The word of a well-formed operation carries the number of its row. -/
def Statement (i : Instr) : Prop := i.wf = true → numberIn i.format (encode i) = number i

theorem math_row {q k : Nat} (hk : k < 11) (h : 11 * q + k < 2 ^ 32) : (mathSelectorWord q k).toNat % 11 = k := by
  rw [mathSelectorWord_toNat q k h, Nat.mul_add_mod, Nat.mod_eq_of_lt hk]

theorem merge_row (hi : BitVec 30) (k : BitVec 2) : (mergeSelectorWord hi k).toNat % 4 = k.toNat := by
  rw [mergeSelectorWord_toNat, Nat.mul_comm, Nat.mul_add_mod, Nat.mod_eq_of_lt k.isLt]

theorem idle : Statement .idle := fun _ => congrArg BitVec.toNat (opField_fieldsWord _ _ _)
theorem mixseed : Statement .mixseed := fun _ => congrArg BitVec.toNat (opField_fieldsWord _ _ _)
theorem laneseed (idx : BitVec 16) : Statement (.laneseed idx) := fun _ => congrArg BitVec.toNat (opField_fieldsWord _ _ _)
theorem lanefill (idx : BitVec 16) : Statement (.lanefill idx) := fun _ => congrArg BitVec.toNat (opField_fieldsWord _ _ _)
theorem epoch : Statement .epoch := fun _ => congrArg BitVec.toNat (opField_fieldsWord _ _ _)
theorem schseed : Statement .schseed := fun _ => congrArg BitVec.toNat (opField_fieldsWord _ _ _)
theorem fyswap (idx : BitVec 16) : Statement (.fyswap idx) := fun _ => congrArg BitVec.toNat (opField_fieldsWord _ _ _)
theorem itemsel (r : BitVec 8) : Statement (.itemsel r) := fun _ => congrArg BitVec.toNat (opField_fieldsWord _ _ _)
theorem lookup (r : BitVec 8) : Statement (.lookup r) := fun _ => congrArg BitVec.toNat (opField_fieldsWord _ _ _)
theorem cacheop (r : BitVec 8) (idx : BitVec 16) : Statement (.cacheop r idx) := fun _ => congrArg BitVec.toNat (opField_fieldsWord _ _ _)
theorem mathop (r : BitVec 8) (idx : BitVec 16) : Statement (.mathop r idx) := fun _ => congrArg BitVec.toNat (opField_fieldsWord _ _ _)
theorem dagplan (r : BitVec 8) (idx : BitVec 16) : Statement (.dagplan r idx) := fun _ => congrArg BitVec.toNat (opField_fieldsWord _ _ _)
theorem dagmerge (r : BitVec 8) (idx : BitVec 16) : Statement (.dagmerge r idx) := fun _ => congrArg BitVec.toNat (opField_fieldsWord _ _ _)
theorem lanehash (idx : BitVec 16) : Statement (.lanehash idx) := fun _ => congrArg BitVec.toNat (opField_fieldsWord _ _ _)
theorem digfold (idx : BitVec 16) : Statement (.digfold idx) := fun _ => congrArg BitVec.toNat (opField_fieldsWord _ _ _)
theorem serial : Statement .serial := fun _ => congrArg BitVec.toNat (opField_fieldsWord _ _ _)
theorem halt : Statement .halt := fun _ => congrArg BitVec.toNat (opField_fieldsWord _ _ _)
theorem fault : Statement .fault := fun _ => congrArg BitVec.toNat (opField_fieldsWord _ _ _)
theorem fnv1a : Statement .fnv1a := fun _ => congrArg BitVec.toNat (opField_fieldsWord _ _ _)
theorem kseed : Statement .kseed := fun _ => congrArg BitVec.toNat (opField_fieldsWord _ _ _)
theorem knext : Statement .knext := fun _ => congrArg BitVec.toNat (opField_fieldsWord _ _ _)
theorem nsrc : Statement .nsrc := fun _ => congrArg BitVec.toNat (opField_fieldsWord _ _ _)
theorem ndst : Statement .ndst := fun _ => congrArg BitVec.toNat (opField_fieldsWord _ _ _)
theorem merge : Statement .merge := fun _ => congrArg BitVec.toNat (opField_fieldsWord _ _ _)
theorem math : Statement .math := fun _ => congrArg BitVec.toNat (opField_fieldsWord _ _ _)
theorem nop : Statement .nop := fun _ => rfl
theorem start : Statement .start := fun _ => rfl
theorem abort : Statement .abort := fun _ => rfl
theorem mergeRow0 (hi : BitVec 30) : Statement (.mergeRow0 hi) := fun _ => merge_row hi 0#2
theorem mergeRow1 (hi : BitVec 30) : Statement (.mergeRow1 hi) := fun _ => merge_row hi 1#2
theorem mergeRow2 (hi : BitVec 30) : Statement (.mergeRow2 hi) := fun _ => merge_row hi 2#2
theorem mergeRow3 (hi : BitVec 30) : Statement (.mergeRow3 hi) := fun _ => merge_row hi 3#2
theorem mathRow0 (q : Nat) : Statement (.mathRow0 q) := fun h => math_row (by decide) (of_decide_eq_true h)
theorem mathRow1 (q : Nat) : Statement (.mathRow1 q) := fun h => math_row (by decide) (of_decide_eq_true h)
theorem mathRow2 (q : Nat) : Statement (.mathRow2 q) := fun h => math_row (by decide) (of_decide_eq_true h)
theorem mathRow3 (q : Nat) : Statement (.mathRow3 q) := fun h => math_row (by decide) (of_decide_eq_true h)
theorem mathRow4 (q : Nat) : Statement (.mathRow4 q) := fun h => math_row (by decide) (of_decide_eq_true h)
theorem mathRow5 (q : Nat) : Statement (.mathRow5 q) := fun h => math_row (by decide) (of_decide_eq_true h)
theorem mathRow6 (q : Nat) : Statement (.mathRow6 q) := fun h => math_row (by decide) (of_decide_eq_true h)
theorem mathRow7 (q : Nat) : Statement (.mathRow7 q) := fun h => math_row (by decide) (of_decide_eq_true h)
theorem mathRow8 (q : Nat) : Statement (.mathRow8 q) := fun h => math_row (by decide) (of_decide_eq_true h)
theorem mathRow9 (q : Nat) : Statement (.mathRow9 q) := fun h => math_row (by decide) (of_decide_eq_true h)
theorem mathRow10 (q : Nat) : Statement (.mathRow10 q) := fun h => math_row (by decide) (of_decide_eq_true h)

end Sys2Proof.Laws.OpCode
end

