-- ==== Sys2Proof/Laws/Sequence.lean ====
section
/-! SUPPORT. Where the successor function of R211 can lead: one lemma per helper target, with the position and the bound that
holds there, and when a position is one of a running computation. -/

namespace Sys2Proof.Machine

open Sys2Proof

theorem seqEndround_cases (r : BitVec 8) :
    (r.toNat < 63 ∧ seqEndround r = ⟨0x07#8, r + 1#8, 0#16⟩) ∨
      (63 ≤ r.toNat ∧ seqEndround r = ⟨0x0D#8, 0#8, 0#16⟩) := by
  unfold seqEndround
  split
  · exact .inl ⟨by assumption, rfl⟩
  · exact .inr ⟨by omega, rfl⟩

theorem seqDmerge_cases (wpl : Nat) (r : BitVec 8) (i : Nat) :
    (i < wpl ∧ seqDmerge wpl r i = ⟨0x0C#8, r, BitVec.ofNat 16 i⟩) ∨
      (wpl ≤ i ∧ seqDmerge wpl r i = seqEndround r) := by
  unfold seqDmerge
  split
  · exact .inl ⟨by assumption, rfl⟩
  · exact .inr ⟨by omega, rfl⟩

theorem seqPlan_cases (wpl : Nat) (r : BitVec 8) (i : Nat) :
    (i < wpl ∧ seqPlan wpl r i = ⟨0x0B#8, r, BitVec.ofNat 16 i⟩) ∨
      (wpl ≤ i ∧ seqPlan wpl r i = seqDmerge wpl r 0) := by
  unfold seqPlan
  split
  · exact .inl ⟨by assumption, rfl⟩
  · exact .inr ⟨by omega, rfl⟩

theorem seqBody_cases (c : Cfg) (wpl : Nat) (r : BitVec 8) (i : Nat) :
    (i < c.numCacheAccesses ∧ seqBody c wpl r i = ⟨0x09#8, r, BitVec.ofNat 16 i⟩) ∨
      (c.numCacheAccesses ≤ i ∧ i < c.numMathOperations ∧ seqBody c wpl r i = ⟨0x0A#8, r, BitVec.ofNat 16 i⟩) ∨
      (c.numCacheAccesses ≤ i ∧ c.numMathOperations ≤ i ∧ seqBody c wpl r i = seqPlan wpl r 0) := by
  unfold seqBody
  split
  · split
    · exact .inl ⟨by assumption, rfl⟩
    · exact .inr (.inl ⟨by omega, by omega, rfl⟩)
  · exact .inr (.inr ⟨by omega, by omega, rfl⟩)

/-- The word of a position. -/
abbrev Pc.word (p : Pc) : Word := fieldsWord p.op p.r p.idx

/-- A position of a running computation: it holds a micro-operation in its range, with its entry below `wpl`. -/
def Pc.working (c : Cfg) (wpl : Nat) (p : Pc) : Prop :=
  0x01 ≤ p.op.toNat ∧ p.op.toNat ≤ 0x0F ∧
    ∃ i, decodeS p.word = .ok i ∧ i.inRange c = true ∧ Instr.entryBelow wpl i = true

theorem State.atWork_iff (s : State) : s.atWork = true ↔ s.pc.working s.cfg s.core.wpl := by
  unfold State.atWork Pc.working
  rw [show decode .S s.pcreg = decodeS s.pc.word from rfl]
  cases decodeS s.pc.word with
  | ok i => simp [and_assoc]
  | rejected e => simp

/-- A number below `2^16` as an index field. -/
theorem idx_toNat {n : Nat} (h : n ≤ 65535) : (BitVec.ofNat 16 n).toNat = n := by
  rw [BitVec.toNat_ofNat, Nat.mod_eq_of_lt (by omega)]

/-- Where a round can go on after its last dataset merge. -/
theorem seqEndround_working {c : Cfg} {r : BitVec 8} (hc : c.wf = true) (wpl : Nat) :
    (seqEndround r).working c wpl := by
  have hw : 1 ≤ c.numLanes := by simp [Cfg.wf] at hc; omega
  rcases seqEndround_cases r with ⟨h, e⟩ | ⟨-, e⟩ <;> rw [e]
  · have hr : (r + 1#8).toNat = r.toNat + 1 := by simp [BitVec.toNat_add]; omega
    refine ⟨by simp, by simp, .itemsel (r + 1#8), ?_, ?_, rfl⟩
    · simp [decodeS_fieldsWord, hr]; omega
    · simp only [Instr.inRange, hr, decide_eq_true_eq]; omega
  · refine ⟨by decide, by decide, .lanehash 0#16, by simp [decodeS_fieldsWord], ?_, rfl⟩
    simp [Instr.inRange]; omega

theorem seqDmerge_working {c : Cfg} {wpl : Nat} {r : BitVec 8} (hc : c.wf = true) (hr : r.toNat ≤ 63)
    (hw : wpl ≤ c.itemMax / c.numLanes) (i : Nat) : (seqDmerge wpl r i).working c wpl := by
  have hm : c.itemMax / c.numLanes ≤ 65535 := by simp only [Cfg.wf, decide_eq_true_eq] at hc; omega
  rcases seqDmerge_cases wpl r i with ⟨h, e⟩ | ⟨-, e⟩ <;> rw [e]
  · refine ⟨by simp, by simp, .dagmerge r (BitVec.ofNat 16 i), by simp [decodeS_fieldsWord, hr], ?_, ?_⟩
    · simp only [Instr.inRange, idx_toNat (show i ≤ 65535 by omega), Bool.and_eq_true, decide_eq_true_eq]; omega
    · simp only [Instr.entryBelow, idx_toNat (show i ≤ 65535 by omega), decide_eq_true_eq]; exact h
  · exact seqEndround_working hc wpl

theorem seqPlan_working {c : Cfg} {wpl : Nat} {r : BitVec 8} (hc : c.wf = true) (hr : r.toNat ≤ 63)
    (hw : wpl ≤ c.itemMax / c.numLanes) (i : Nat) : (seqPlan wpl r i).working c wpl := by
  have hm : c.itemMax / c.numLanes ≤ 65535 := by simp only [Cfg.wf, decide_eq_true_eq] at hc; omega
  rcases seqPlan_cases wpl r i with ⟨h, e⟩ | ⟨-, e⟩ <;> rw [e]
  · refine ⟨by simp, by simp, .dagplan r (BitVec.ofNat 16 i), by simp [decodeS_fieldsWord, hr], ?_, ?_⟩
    · simp only [Instr.inRange, idx_toNat (show i ≤ 65535 by omega), Bool.and_eq_true, decide_eq_true_eq]; omega
    · simp only [Instr.entryBelow, idx_toNat (show i ≤ 65535 by omega), decide_eq_true_eq]; exact h
  · exact seqDmerge_working hc hr hw 0

theorem seqBody_working {c : Cfg} {wpl : Nat} {r : BitVec 8} (hc : c.wf = true) (hr : r.toNat ≤ 63)
    (hw : wpl ≤ c.itemMax / c.numLanes) (i : Nat) : (seqBody c wpl r i).working c wpl := by
  have hm : c.numCacheAccesses ≤ 65535 ∧ c.numMathOperations ≤ 65535 := by
    simp only [Cfg.wf, decide_eq_true_eq] at hc; omega
  rcases seqBody_cases c wpl r i with ⟨h, e⟩ | ⟨-, h, e⟩ | ⟨-, -, e⟩ <;> rw [e]
  · refine ⟨by simp, by simp, .cacheop r (BitVec.ofNat 16 i), by simp [decodeS_fieldsWord, hr], ?_, rfl⟩
    simp only [Instr.inRange, idx_toNat (show i ≤ 65535 by omega), Bool.and_eq_true, decide_eq_true_eq]; omega
  · refine ⟨by simp, by simp, .mathop r (BitVec.ofNat 16 i), by simp [decodeS_fieldsWord, hr], ?_, rfl⟩
    simp only [Instr.inRange, idx_toNat (show i ≤ 65535 by omega), Bool.and_eq_true, decide_eq_true_eq]; omega
  · exact seqPlan_working hc hr hw 0

end Sys2Proof.Machine
end

