-- ==== Sys2Proof/Laws/Step.lean ====
section
/-! SUPPORT. What a step can be: one inversion lemma for `step`, so that an invariant is proved by going through the turns of
the agents and not by unfolding `step`. -/

namespace Sys2Proof.Machine

open Sys2Proof

/-- One turn of an agent (R6): what it does to the state from which the input that gives it its turn has been taken. -/
inductive Turn (s : State) : Event → State → Prop where
  /-- the sequencer executes the micro-operation in `PC` -/
  | sequencer {i : Instr} {t : State} : s.call = none → decode .S s.pcreg = .ok i → i.inRange s.cfg = true →
      exec i s = .next t → Turn s .sequencer t
  /-- the sequencer makes the call it has in hand -/
  | call {call : Call} {i : Instr} {t : State} : s.call = some call → decode call.kind.format call.word = .ok i →
      exec i { s with call := none } = .next t → Turn s .sequencer t
  /-- the host reads -/
  | hostRead (offset : Word) (width : Nat) : Turn s (.host (.read offset width)) (s.hostRead offset width)
  /-- the host writes a command to `CTRL` -/
  | command {w : Word} {i : Instr} {t : State} : decode .H w = .ok i → exec i s = .next t →
      Turn s (.host (.write 0#32 32 w)) t
  /-- the host writes another register -/
  | hostData (offset v : Word) : accessLegal offset 32 = true → windowReg s.cfg offset ≠ .ctrl →
      Turn s (.host (.write offset 32 v)) (s.hostWriteData (windowReg s.cfg offset) v)
  /-- a host write that names no register, or a reserved command -/
  | hostRefused (offset : Word) (width : Nat) (v : Word) :
      (accessLegal offset width = false ∨ (offset = 0#32 ∧ ∃ e, decode .H v = .rejected e)) →
      Turn s (.host (.write offset width v)) s.refuseWrite
  /-- the responder answers -/
  | answer : Turn s .answer s.takeAnswer
  /-- an answer to an abandoned request arrives -/
  | staleAnswer : Turn s .staleAnswer s
  /-- the platform changes the dataset -/
  | dataset (d : Dataset) : s.st ≠ .busy → Turn s (.dataset d) { s with dataset := d }
  /-- reset -/
  | reset : Turn s .reset s.resetInput

/-- Only the offset 0 is `CTRL` (R250). -/
theorem windowReg_ctrl {c : Cfg} {offset : Word} (h : windowReg c offset = .ctrl) : offset = 0#32 := by
  unfold windowReg at h
  split at h
  · rename_i hn
    exact BitVec.eq_of_toNat_eq (by simpa using hn)
  all_goals first
    | (split at h
       · cases h
       · split at h <;> cases h)
    | cases h

theorem accessLegal_width {offset : Word} {width : Nat} (h : accessLegal offset width = true) : width = 32 := by
  simp [accessLegal] at h
  exact h.1

@[simp] theorem Fetched.outcome_run (i : Instr) (s : State) : (Fetched.run i s).outcome = exec i s := rfl
@[simp] theorem Fetched.outcome_settled (o : Result) : (Fetched.settled o).outcome = o := rfl

/-- With no call in hand the sequencer's turn is the micro-operation in `PC`. -/
theorem fetchSequencer_none {s : State} (hc : s.call = none) : fetchSequencer s = fetchPc s := by
  unfold fetchSequencer; rw [hc]

/-- A call in hand is made first. -/
theorem fetchSequencer_some {s : State} {call : Call} (hc : s.call = some call) :
    fetchSequencer s = fetchCall call { s with call := none } := by
  unfold fetchSequencer; rw [hc]

/-- With nothing pending the sequencer acts. -/
theorem step_nil {s : State} (hw : s.cfg.wf = true) (he : s.env = []) : step s = (fetchSequencer s).outcome := by
  unfold step fetch; rw [if_pos hw, he]

/-- The sequencer's turn among the pending inputs. -/
theorem step_sequencer {s : State} {rest : List Event} (hw : s.cfg.wf = true) (he : s.env = .sequencer :: rest) :
    step s = (fetchSequencer { s with env := rest }).outcome := by
  unfold step fetch; rw [if_pos hw, he]

/-- The host's turn. -/
theorem step_host {s : State} {a : HostAccess} {rest : List Event} (hw : s.cfg.wf = true)
    (he : s.env = .host a :: rest) : step s = (fetchHost a { s with env := rest }).outcome := by
  unfold step fetch; rw [if_pos hw, he]

/-- The responder's turn. -/
theorem step_answer {s : State} {rest : List Event} (hw : s.cfg.wf = true) (he : s.env = .answer :: rest) :
    step s = .next (State.takeAnswer { s with env := rest }) := by
  unfold step fetch; rw [if_pos hw, he]; rfl

/-- Reset. -/
theorem step_reset {s : State} {rest : List Event} (hw : s.cfg.wf = true) (he : s.env = .reset :: rest) :
    step s = .next (State.resetInput { s with env := rest }) := by
  unfold step fetch; rw [if_pos hw, he]; rfl

/-- Every step that answers a next state is a turn of an agent, on a well-formed configuration. -/
theorem step_turn {s t : State} (h : step s = .next t) : s.cfg.wf = true ∧
    ((s.env = [] ∧ Turn s .sequencer t) ∨ ∃ e rest, s.env = e :: rest ∧ Turn { s with env := rest } e t) := by
  unfold step fetch at h
  by_cases hwf : s.cfg.wf = true
  · refine ⟨hwf, ?_⟩
    rw [if_pos hwf] at h
    have pcTurn : ∀ s0 : State, (fetchSequencer s0).outcome = .next t → Turn s0 .sequencer t := by
      intro s0 h0
      cases hc : s0.call with
      | none =>
        rw [fetchSequencer_none hc, fetchPc] at h0
        split at h0
        · rename_i hd
          split at h0
          · exact .sequencer hc hd (by assumption) h0
          · cases h0
        · cases h0
      | some call =>
        rw [fetchSequencer_some hc, fetchCall] at h0
        split at h0
        · rename_i hd
          exact .call hc hd h0
        · cases h0
    cases henv : s.env with
    | nil =>
      rw [henv] at h
      exact .inl ⟨rfl, pcTurn s h⟩
    | cons e rest =>
      rw [henv] at h
      refine .inr ⟨e, rest, rfl, ?_⟩
      cases e with
      | sequencer => exact pcTurn _ h
      | answer => injection h with h; subst h; exact .answer
      | staleAnswer => injection h with h; subst h; exact .staleAnswer
      | reset => injection h with h; subst h; exact .reset
      | dataset d =>
        simp only at h
        split at h
        · cases h
        · injection h with h; subst h; exact .dataset d (by assumption)
      | host a =>
        cases a with
        | read offset width => injection h with h; subst h; exact .hostRead _ _
        | write offset width v =>
          simp only [fetchHost] at h
          by_cases hl : accessLegal offset width = true
          · rw [if_pos hl] at h
            have hw := accessLegal_width hl
            subst hw
            by_cases hc : windowReg s.cfg offset = .ctrl
            · have ho := windowReg_ctrl hc
              subst ho
              rw [hc] at h
              simp only at h
              cases hd : decode .H v with
              | ok i => rw [hd] at h; exact .command hd h
              | rejected e => rw [hd] at h; injection h with h; subst h; exact .hostRefused _ _ _ (.inr ⟨rfl, e, hd⟩)
            · have key : Turn { s with env := rest } (.host (.write offset 32 v))
                  (State.hostWriteData { s with env := rest } (windowReg s.cfg offset) v) := .hostData offset v hl hc
              revert h key
              cases hreg : windowReg s.cfg offset
              case ctrl => exact absurd hreg hc
              all_goals
                intro h key
                injection h with h
                subst h
                exact key
          · rw [if_neg hl] at h
            injection h with h
            subst h
            exact .hostRefused _ _ _ (.inl (by simpa using hl))
  · rw [if_neg hwf] at h
    cases h

/-! ### What the decoders admit -/

/-- A command is NOP, START or ABORT (R94). -/
theorem decodeH_cases {w : Word} {i : Instr} (h : decode .H w = .ok i) :
    (w = 0#32 ∧ i = .nop) ∨ (w = 1#32 ∧ i = .start) ∨ (w = 2#32 ∧ i = .abort) := by
  simp only [decode, decodeH] at h
  split at h
  · injection h with h
    exact .inl ⟨BitVec.eq_of_toNat_eq (by simpa), h.symm⟩
  · injection h with h
    exact .inr (.inl ⟨BitVec.eq_of_toNat_eq (by simpa), h.symm⟩)
  · injection h with h
    exact .inr (.inr ⟨BitVec.eq_of_toNat_eq (by simpa), h.symm⟩)
  · cases h

/-! ### The call in hand -/

/-- No instruction issues a call: the one in hand, if there is one, stays as it is. -/
theorem exec_call {i : Instr} {s t : State} (h : exec i s = .next t) : t.call = s.call := by
  cases i
  case lookup =>
    simp only [exec, execLookup] at h
    split at h
    · cases h; rfl
    · cases h; simp [State.lookupFault, State.dropCore]
    · split at h <;> cases h <;> simp [State.lookupFault, State.dropCore, State.takeItem, State.goto]
  case cacheop => simp only [exec, execCacheop] at h; split at h <;> cases h; simp [State.goto, State.withCore]
  case dagmerge => simp only [exec, execDagmerge] at h; split at h <;> cases h; simp [State.goto, State.withCore]
  case start =>
    simp only [exec, execStart] at h
    split at h
    · cases h; rfl
    · split at h <;> cases h; simp [State.beginRun, State.dropCore]
  case abort => simp only [exec, execAbort] at h; split at h <;> cases h <;> simp [State.abandonRun, State.dropCore]
  case kseed | knext =>
    simp only [exec, execKseed, execKnext, State.withGen] at h; cases h; split <;> simp
  all_goals (cases h; simp [State.goto, State.withCore, State.withResult, State.enterHalt])

end Sys2Proof.Machine
end

