-- ==== Sys2Proof/Tests/Slice0.lean ====
section
/-! SUPPORT. The model's own tests: the checks of WellFormed on ill-formed terms, one word written out for every operation, one
or two vectors of spec/95_test_vectors.md for every operation (each named in its comment), and for every statement with
hypotheses a state that meets them. -/

namespace Sys2Proof.Tests

open Sys2Proof Sys2Proof.Machine

/-! ### Configurations and states of spec/95_test_vectors.md part 2 -/

/-- Configuration T. -/
def cfgT : Cfg := { Cfg.suggested with
  numLanes := 2, numRegs := 4, numCacheAccesses := 2, numMathOperations := 2, cacheSize := 16, cacheWordCount := 16
  periodLength := 1 }

/-- Configuration M. -/
def cfgM : Cfg := { Cfg.suggested with
  numLanes := 1, numRegs := 2, numCacheAccesses := 1, numMathOperations := 0, cacheSize := 2, cacheWordCount := 2
  periodLength := 1 }

/-- Configuration X. -/
def cfgX : Cfg := { Cfg.suggested with
  numLanes := 3, numRegs := 5, numCacheAccesses := 1, numMathOperations := 3, cacheSize := 16, cacheWordCount := 8
  digestOrder := .be }

/-- A cache with the given words from index 0 on. -/
def cacheOf (ws : List Word) : Memory :=
  (ws.zipIdx).foldl (fun m wk => writeWord m (cacheAddr wk.2) wk.1) []

/-- A block whose inputs have all been written, at rest. -/
def ready (c : Cfg) (seed height : U64) (cache : List Word) : State :=
  { State.resetWith c with
    seed := seed, seedLoHeld := true, seedHiHeld := true, height := height, heightLoHeld := true, heightHiHeld := true
    cache := cacheOf cache }

/-- The same block in the middle of a computation. -/
def running (s : State) (op r : BitVec 8) (idx : BitVec 16) (k : Core) : State :=
  { s with st := .busy, pc := ⟨op, r, idx⟩, core := k }

/-- Configuration M with its inputs. -/
def stateM : State := ready cfgM 0#64 0#64 [0x00000000#32, 0xFFFFFFFF#32]

/-- Core state of M with both permutations in place. -/
def coreM : Core := { Core.reset cfgM with dstSeq := [1, 0], srcSeq := [0, 1] }

/-- Configuration T with the seed 1; only the cache words that a test reads are written. -/
def stateT : State := { State.resetWith cfgT with
  seed := 1#64, cache := writeWord (writeWord [] (cacheAddr 10) 0xAAAAAAAA#32) (cacheAddr 13) 0xDDDDDDDD#32 }

/-- Core state of T on entry to round 0 (V-I11, V-I12, V-S3). -/
def coreT : Core := { Core.reset cfgT with
  mix := [[0x214E7C4D#32, 0xA1929A45#32, 0xBD34E5DD#32, 0x16874042#32],
    [0x5CA417AA#32, 0x5F1F1C71#32, 0xB1C224B1#32, 0xF9A170CF#32]]
  gs := ⟨0x89E8D886#32, 0x28D14791#32, 0x294F511C#32, 0x9BC72C03#32⟩
  dstSeq := [0, 3, 1, 2]
  srcSeq := [3, 0, 2, 1] }

/-- A field of the next state, where there is one. -/
def after {α : Type} (o : Result) (f : State → α) : Option α :=
  match o with
  | .next t => some (f t)
  | .fault _ => none
  | .refused _ => none

/-- A next state is answered. -/
def completes (o : Result) : Bool := (after o fun _ => ()).isSome

/-- The reason of a refusal. -/
def refusalOf (o : Result) : Option Refusal :=
  match o with
  | .refused r => some r
  | .next _ => none
  | .fault _ => none

/-- A block with one pending input. -/
def withInput (s : State) (e : Event) : State := { s with env := [e] }

/-- A function unit's operands. -/
def withPort (s : State) (a b c d : Word) (g : GenSel) : State := { s with port := ⟨a, b, c, d, g, 0#32⟩ }

/-! ### WellFormed: an ill-formed term for each check -/

theorem test_wf_configurations : Cfg.suggested.wf ∧ cfgT.wf ∧ cfgM.wf ∧ cfgX.wf := by decide

theorem test_wf_refuses_lane_counts :
    Cfg.wf { cfgT with numLanes := 0 } = false ∧ Cfg.wf { cfgT with numLanes := 65536 } = false := by decide

theorem test_wf_refuses_register_counts :
    Cfg.wf { cfgT with numRegs := 1 } = false ∧ Cfg.wf { cfgT with numRegs := 65536 } = false := by decide

theorem test_wf_refuses_operation_counts :
    Cfg.wf { cfgT with numCacheAccesses := 65536 } = false ∧
      Cfg.wf { cfgT with numMathOperations := 65536 } = false := by decide

theorem test_wf_refuses_cache_sizes :
    Cfg.wf { cfgT with cacheSize := 1, cacheWordCount := 1 } = false ∧
      Cfg.wf { cfgT with cacheSize := 536870913 } = false ∧
      Cfg.wf { cfgT with cacheWordCount := 0 } = false ∧ Cfg.wf { cfgT with cacheWordCount := 17 } = false := by decide

theorem test_wf_refuses_period_and_item :
    Cfg.wf { cfgT with periodLength := 0 } = false ∧
      Cfg.wf { cfgT with periodLength := 18446744073709551616 } = false ∧
      Cfg.wf { cfgT with itemMax := 131072 } = false := by decide

theorem test_wf_refuses_rounds : Instr.wf (.itemsel 64#8) = false ∧ Instr.wf (.lookup 64#8) = false ∧
    Instr.wf (.cacheop 64#8 0#16) = false ∧ Instr.wf (.mathop 64#8 0#16) = false ∧
    Instr.wf (.dagplan 64#8 0#16) = false ∧ Instr.wf (.dagmerge 255#8 0#16) = false := by decide

theorem test_wf_refuses_long_selectors : Instr.wf (.mathRow0 390451573) = false ∧
    Instr.wf (.mathRow3 390451572) = true ∧ Instr.wf (.mathRow4 390451572) = false ∧
    Instr.wf (.mathRow10 390451572) = false := by decide

theorem test_inRange_refuses : Instr.inRange cfgT (.laneseed 2#16) = false ∧ Instr.inRange cfgT (.lanefill 2#16) = false ∧
    Instr.inRange cfgT (.fyswap 1#16) = false ∧ Instr.inRange cfgT (.fyswap 5#16) = false ∧
    Instr.inRange cfgT (.itemsel 64#8) = false ∧ Instr.inRange cfgT (.cacheop 0#8 2#16) = false ∧
    Instr.inRange cfgT (.mathop 0#8 2#16) = false ∧ Instr.inRange cfgT (.dagplan 0#8 32#16) = false ∧
    Instr.inRange cfgT (.dagmerge 63#8 32#16) = false ∧ Instr.inRange cfgT (.lanehash 2#16) = false ∧
    Instr.inRange cfgT (.digfold 2#16) = false := by decide

theorem test_memory_wf : Memory.wf (cacheOf [1#32, 2#32]) = true ∧ Memory.wf [(5, 0#8), (5, 1#8)] = false ∧
    Memory.wf [(5, 0#8), (4, 1#8)] = false := by decide

/-! ### Decode: a word for every operation, written out from R91 to R94, R96 and the programs P1 and P3 -/

theorem test_decode_mixinit : decode .S 0x01000000#32 = .ok .mixseed ∧ decode .S 0x02000001#32 = .ok (.laneseed 1#16) ∧
    decode .S 0x03000001#32 = .ok (.lanefill 1#16) := by decide

theorem test_decode_schedule : decode .S 0x04000000#32 = .ok .epoch ∧ decode .S 0x05000000#32 = .ok .schseed ∧
    decode .S 0x06000004#32 = .ok (.fyswap 4#16) ∧ decode .P 0x23000000#32 = .ok .nsrc ∧
    decode .P 0x24000000#32 = .ok .ndst := by decide

theorem test_decode_round : decode .S 0x073F0000#32 = .ok (.itemsel 63#8) ∧ decode .S 0x08050000#32 = .ok (.lookup 5#8) ∧
    decode .S 0x09030001#32 = .ok (.cacheop 3#8 1#16) ∧ decode .S 0x0A010001#32 = .ok (.mathop 1#8 1#16) ∧
    decode .S 0x0B000007#32 = .ok (.dagplan 0#8 7#16) ∧ decode .S 0x0C3F0007#32 = .ok (.dagmerge 63#8 7#16) := by decide

theorem test_decode_pipeline : decode .S 0x00000000#32 = .ok .idle ∧ decode .S 0x0D000001#32 = .ok (.lanehash 1#16) ∧
    decode .S 0x0E000001#32 = .ok (.digfold 1#16) ∧ decode .S 0x0F000000#32 = .ok .serial ∧
    decode .S 0x10000000#32 = .ok .halt ∧ decode .S 0x11000000#32 = .ok .fault := by decide

theorem test_decode_primitives : decode .P 0x20000000#32 = .ok .fnv1a ∧ decode .P 0x21000000#32 = .ok .kseed ∧
    decode .P 0x22000000#32 = .ok .knext ∧ decode .P 0x25000000#32 = .ok .merge ∧
    decode .P 0x26000000#32 = .ok .math := by decide

theorem test_decode_commands : decode .H 0x00000000#32 = .ok .nop ∧ decode .H 0x00000001#32 = .ok .start ∧
    decode .H 0x00000002#32 = .ok .abort := by decide

/-- Selectors of spec/95_test_vectors.md 3.7; `0x2AAAAAAA` is bits 31:2 of `0xAAAAAAA8 .. 0xAAAAAAAB`. -/
theorem test_decode_merge_rows : decode .mergeSelector 0xAAAAAAA8#32 = .ok (.mergeRow0 0x2AAAAAAA#30) ∧
    decode .mergeSelector 0x00000001#32 = .ok (.mergeRow1 0#30) ∧
    decode .mergeSelector 0x001F0002#32 = .ok (.mergeRow2 0x7C000#30) ∧
    decode .mergeSelector 0xFFFFFFFF#32 = .ok (.mergeRow3 0x3FFFFFFF#30) := by decide

/-- `11 = 11 * 1 + 0`, `22 = 11 * 2 + 0`, `0xFFFFFFFF = 11 * 390451572 + 3` (3.7). -/
theorem test_decode_math_rows : decode .mathSelector 22#32 = .ok (.mathRow0 2) ∧
    decode .mathSelector 1#32 = .ok (.mathRow1 0) ∧ decode .mathSelector 13#32 = .ok (.mathRow2 1) ∧
    decode .mathSelector 0xFFFFFFFF#32 = .ok (.mathRow3 390451572) ∧ decode .mathSelector 4#32 = .ok (.mathRow4 0) ∧
    decode .mathSelector 5#32 = .ok (.mathRow5 0) ∧ decode .mathSelector 6#32 = .ok (.mathRow6 0) ∧
    decode .mathSelector 7#32 = .ok (.mathRow7 0) ∧ decode .mathSelector 8#32 = .ok (.mathRow8 0) ∧
    decode .mathSelector 9#32 = .ok (.mathRow9 0) ∧ decode .mathSelector 10#32 = .ok (.mathRow10 0) := by decide

theorem test_decode_rejects : decode .S 0x12000000#32 = .rejected .unassignedOp ∧
    decode .S 0x20000000#32 = .rejected .primitiveInPc ∧ decode .S 0xFF000000#32 = .rejected .unassignedOp ∧
    decode .S 0x01000001#32 = .rejected .fieldNotZero ∧ decode .S 0x02010000#32 = .rejected .fieldNotZero ∧
    decode .S 0x07400000#32 = .rejected .roundAbove63 ∧ decode .P 0x11000000#32 = .rejected .sequencerCodeInUnit ∧
    decode .P 0x27000000#32 = .rejected .unassignedOp ∧ decode .H 0x00000003#32 = .rejected .reservedCommand ∧
    decode .H 0x00000011#32 = .rejected .reservedCommand := by decide

/-! ### Vectors: FNV1A and KISS99 -/

/-- V-F1, V-F7 -/
theorem test_fnv1a : after (exec .fnv1a (withPort stateT 0x811C9DC5#32 0xDDD0A47B#32 0#32 0#32 .gs)) (·.port.result) =
      some 0xD37EE61A#32 ∧
    after (exec .fnv1a (withPort stateT 0xFFFFFFFF#32 0#32 0#32 0#32 .gs)) (·.port.result) = some 0xFEFFFE6D#32 := by
  decide

/-- R131 worked example -/
theorem test_kseed : after (exec .kseed (withPort stateT 362436069#32 521288629#32 123456789#32 380116160#32 .gl))
    (fun t => (t.core.gl, t.core.gs)) =
      some (⟨0x159A55E5#32, 0x1F123BB5#32, 0x075BCD15#32, 0x16A81CC0#32⟩, ⟨0#32, 0#32, 0#32, 0#32⟩) := by decide

/-- V-K1 call 1; V-K4 call 1 -/
theorem test_knext : after (exec .knext { withPort stateT 0#32 0#32 0#32 0#32 .gs with
      core := { coreT with gs := ⟨362436069#32, 521288629#32, 123456789#32, 380116160#32⟩ } })
      (fun t => (t.port.result, t.core.gs)) =
      some (769445856#32, ⟨812916871#32, 275137954#32, 869398011#32, 3404176455#32⟩) ∧
    after (exec .knext { withPort stateT 0#32 0#32 0#32 0#32 .gl with
      core := { coreT with gl := ⟨0xFFFFFFFF#32, 0xFFFFFFFF#32, 0xFFFFFFFF#32, 0xFFFFFFFF#32⟩ } }) (·.port.result) =
      some 0xB6357305#32 := by decide

/-- V-S6: the first call returns entry 1, the fourth entry 0 -/
theorem test_nsrc : after (exec .nsrc { stateT with core := coreT }) (fun t => (t.port.result, t.core.srcCnt)) =
      some (0#32, 1#32) ∧
    after (exec .nsrc { stateT with core := { coreT with srcCnt := 3#32 } }) (·.port.result) = some 3#32 := by decide

/-- V-S6 -/
theorem test_ndst : after (exec .ndst { stateT with core := coreT })
      (fun t => (t.port.result, t.core.dstCnt, t.core.srcCnt)) = some (3#32, 1#32, 0#32) ∧
    after (exec .ndst { stateT with core := { coreT with dstCnt := 3#32 } }) (·.port.result) = some 0#32 := by decide

/-! ### Vectors: filling the lanes -/

/-- V-I6: both halves of the seed set -/
theorem test_mixseed : after (exec .mixseed { stateT with seed := 0x0123456789ABCDEF#64 })
    (fun t => (t.core.zb, t.core.wb, t.pcreg)) = some (0xE293321E#32, 0xE7CC137B#32, 0x02000000#32) := by decide

/-- V-I9 -/
theorem test_laneseed : after (exec (.laneseed 1#16) { stateT with
      core := { coreT with zb := 0x040C5B8C#32, wb := 0xEB741D64#32 } }) (fun t => (t.core.gl, t.pcreg)) =
    some (⟨0x040C5B8C#32, 0xEB741D64#32, 0x0CCA45FF#32, 0x206C2EDA#32⟩, 0x03000001#32) := by decide

/-- V-I11: lane 0 filled, lane 1 untouched -/
theorem test_lanefill : after (exec (.lanefill 0#16) { stateT with
      core := { Core.reset cfgT with gl := ⟨0x040C5B8C#32, 0xEB741D64#32, 0x0BCA446C#32, 0xFB69B604#32⟩ } })
      (fun t => (t.core.mix, t.pcreg)) =
    some ([[0x214E7C4D#32, 0xA1929A45#32, 0xBD34E5DD#32, 0x16874042#32], [0#32, 0#32, 0#32, 0#32]],
      0x02000001#32) := by decide

/-! ### Vectors: the schedule -/

/-- V-S1e, V-S1c -/
theorem test_epoch : after (exec .epoch { State.resetWith cfgX with height := 0xFFFFFFFFFFFFFFFF#64 })
      (fun t => (t.core.epoch, t.pcreg)) = some (0x051EB851EB851EB8#64, 0x05000000#32) ∧
    after (exec .epoch { State.resetWith cfgX with height := 150#64 }) (·.core.epoch) = some 3#64 := by decide

/-- V-S2d: the high half enters `w` and `jcong` -/
theorem test_schseed : after (exec .schseed { stateT with
      core := { coreT with epoch := 0x0000000100000002#64, dstCnt := 5#32 } })
      (fun t => (t.core.gs, t.core.dstSeq, t.core.srcSeq, t.core.dstCnt, t.pcreg)) =
    some (⟨0x070C6045#32, 0x5C7B8B0C#32, 0xA47BE70A#32, 0xFA0CB651#32⟩, [0, 1, 2, 3], [0, 1, 2, 3], 0#32,
      0x06000004#32) := by decide

/-- V-S3, step FYSWAP 4; V-S4, the one step of configuration M -/
theorem test_fyswap : after (exec (.fyswap 4#16) { stateT with core := { coreT with
      gs := ⟨0x050C5D1F#32, 0x117697CD#32, 0x4AB0F7B7#32, 0x4B95F515#32⟩, dstSeq := [0, 1, 2, 3]
      srcSeq := [0, 1, 2, 3] } }) (fun t => (t.core.dstSeq, t.core.srcSeq, t.pcreg)) =
      some ([0, 1, 3, 2], [0, 3, 2, 1], 0x06000003#32) ∧
    after (exec (.fyswap 2#16) { stateM with core := { coreM with
      gs := ⟨0x050C5D1F#32, 0x117697CD#32, 0x4AB0F7B7#32, 0x4B95F515#32⟩, dstSeq := [0, 1], srcSeq := [0, 1] } })
      (fun t => (t.core.dstSeq, t.core.srcSeq, t.core.gs, t.pcreg)) =
      some ([1, 0], [0, 1], ⟨0x5E124A82#32, 0x276BA791#32, 0x78C518A7#32, 0x9FC869FF#32⟩, 0x07000000#32) := by decide

/-! ### Vectors: the round -/

/-- V-R1: T round 0; T round 1 reads lane 1 -/
theorem test_itemsel : after (exec (.itemsel 0#8) { stateT with core := coreT }) (fun t => (t.core.itemIdx, t.pcreg)) =
      some (5#32, 0x08000000#32) ∧
    after (exec (.itemsel 1#8) { stateT with core := { coreT with mix := [[0#32], [0x2C900EBC#32]] } })
      (·.core.itemIdx) = some 4#32 := by decide

/-- V-R2: 17 words for two lanes; V-E3: 65 words are cause 3 -/
theorem test_lookup : after (exec (.lookup 0#8) { stateT with resp := some (.ok (List.replicate 17 7#32)) })
      (fun t => (t.core.itemLen, t.core.wpl, t.pcreg)) = some (17, 8, 0x09000000#32) ∧
    after (exec (.lookup 63#8) { stateT with
      core := { coreT with itemIdx := 4#32 }, resp := some (.ok (List.replicate 65 7#32)) })
      (fun t => (t.statusWord, t.errinfo, t.pcreg)) = some (0x00000033#32, 4#32, 0x11000000#32) := by decide

/-- V-E2; V-E4: a reserved wire cause is recorded as 1 -/
theorem test_lookup_faults : after (exec (.lookup 1#8) { stateT with
      core := { coreT with itemIdx := 4#32 }, resp := some (.fail 2#2) }) (fun t => (t.statusWord, t.errinfo)) =
      some (0x00000023#32, 4#32) ∧
    after (exec (.lookup 1#8) { stateT with resp := some (.fail 3#2) }) (·.statusWord) = some 0x00000013#32 := by decide

/-- V-R4 row 1 -/
theorem test_cacheop : after (exec (.cacheop 0#8 0#16) { stateT with core := coreT })
    (fun t => (mixReg t.core.mix 0 3, mixReg t.core.mix 1 3, mixReg t.core.mix 0 0, t.core.srcCnt, t.core.dstCnt,
      t.pcreg)) =
    some (0x36AE517F#32, 0xB4872705#32, 0x214E7C4D#32, 1#32, 1#32, 0x0A000000#32) := by decide

/-- V-R4 row 2, on the state row 1 leaves: the destination is a source -/
theorem test_mathop : after (exec (.mathop 0#8 0#16) { stateT with core := { coreT with
      gs := (drawGs cfgT coreT).2.gs, srcCnt := 1#32, dstCnt := 1#32 } })
    (fun t => (mixReg t.core.mix 0 1, mixReg t.core.mix 1 1, t.core.srcCnt, t.core.dstCnt, t.pcreg)) =
    some (0xBA49AA05#32, 0x4B9000DB#32, 1#32, 2#32, 0x09000001#32) := by decide

/-- P2 step 10: entry 0 is register 0 and moves no cursor; V-R5: entry 1 of round 1 of T is `DSTSEQ[16 % 4]` -/
theorem test_dagplan : after (exec (.dagplan 0#8 0#16) { stateM with core := { coreM with
      gs := ⟨0x2A080D64#32, 0x2E062ABB#32, 0x78A3CB1F#32, 0x8AF0AABA#32⟩, dstCnt := 1#32, wpl := 1 } })
      (fun t => (t.core.pdst.getD 0 9, t.core.psel.getD 0 0#32, t.core.dstCnt, t.pcreg)) =
      some (0, 0x13C596E0#32, 1#32, 0x0C000000#32) ∧
    after (exec (.dagplan 1#8 1#16) { stateT with core := { coreT with dstCnt := 15#32, wpl := 8 } })
      (fun t => (t.core.pdst.getD 1 9, t.core.dstCnt, t.pcreg)) = some (0, 16#32, 0x0B010002#32) := by decide

/-- V-R7, DAGMERGE 1, 0: lanes 1 and 2 read the same slice -/
theorem test_dagmerge : after (exec (.dagmerge 1#8 0#16) { State.resetWith cfgX with
      core := { Core.reset cfgX with
        mix := [[0x906F1BC2#32], [0xAB03964C#32], [0x27280798#32]], wpl := 2
        item := [0x0400064C#32, 0x050007DF#32, 0x06000972#32, 0x07000B05#32, 0#32, 0x01000193#32, 0x02000326#32] } })
      (fun t => (mixReg t.core.mix 0 0, mixReg t.core.mix 1 0, mixReg t.core.mix 2 0, t.pcreg)) =
    after (exec (.dagmerge 1#8 0#16) { State.resetWith cfgX with
      core := { Core.reset cfgX with
        mix := [[0x906F1BC2#32], [0xAB03964C#32], [0x27280798#32]], wpl := 2
        item := [0x0400064C#32, 0#32, 0x06000972#32, 0#32, 0#32, 0#32, 0#32] } })
      (fun t => (mixReg t.core.mix 0 0, mixReg t.core.mix 1 0, mixReg t.core.mix 2 0, t.pcreg)) := by decide

/-- P2 step 11 -/
theorem test_dagmerge_value : after (exec (.dagmerge 0#8 0#16) { stateM with core := { coreM with
      mix := [[0xF80F9BDD#32, 0x66EAE715#32]], psel := [0x13C596E0#32], wpl := 1, item := [0x12345678#32] } })
    (fun t => (t.core.mix, t.pcreg)) = some ([[0x0C376DF5#32, 0x66EAE715#32]], 0x07010000#32) := by decide

/-! ### Vectors: reduction and resting operations -/

/-- V-P1 -/
theorem test_lanehash : after (exec (.lanehash 0#16) { stateT with core := { coreT with
      mix := [[0x80A2D6BB#32, 0xB6BBA29A#32, 0xB65944AA#32, 0x28BD9462#32], []] } })
    (fun t => (t.core.laneHash, t.pcreg)) = some ([0xD7B9EB74#32, 0#32], 0x0D000001#32) := by decide

/-- V-P2: lane 0 sets the accumulators, lane 1 keeps them -/
theorem test_digfold : after (exec (.digfold 0#16) { stateT with core := { coreT with
      laneHash := [0xD7B9EB74#32, 0x9E1DADCD#32] } }) (fun t => (t.core.dig.toList, t.pcreg)) =
      some (0x1779D8A3#32 :: List.replicate 7 0x811C9DC5#32, 0x0E000001#32) ∧
    after (exec (.digfold 1#16) { stateT with core := { coreT with
      laneHash := [0xD7B9EB74#32, 0x9E1DADCD#32], dig := Vector.replicate 8 0x811C9DC5#32 } })
      (fun t => (t.core.dig.toList.take 3, t.pcreg)) =
      some ([0x811C9DC5#32, 0xD6DE9C98#32, 0x811C9DC5#32], 0x0F000000#32) := by decide

/-- The first digest words of V-P2. -/
def digT : Core := { coreT with
  dig := #v[0x1779D8A3#32, 0xD6DE9C98#32, 0x811C9DC5#32, 0x811C9DC5#32, 0x811C9DC5#32, 0x811C9DC5#32, 0x811C9DC5#32,
    0x811C9DC5#32] }

/-- V-P4, V-P5 -/
theorem test_serial : after (exec .serial { stateT with core := digT })
      (fun t => (t.core.digBytes.toList.take 8, t.statusWord, t.pcreg)) =
      some ([0xa3#8, 0xd8#8, 0x79#8, 0x17#8, 0x98#8, 0x9c#8, 0xde#8, 0xd6#8], 2#32, 0x10000000#32) ∧
    after (exec .serial { stateT with cfg := { cfgT with digestOrder := .be }, core := digT })
      (fun t => t.core.digBytes.toList.take 8) =
      some [0x17#8, 0x79#8, 0xd8#8, 0xa3#8, 0xd6#8, 0xde#8, 0x9c#8, 0x98#8] := by decide

/-- R215, R216, R217 worked examples: `PCREG` and `STATUS` at rest -/
theorem test_resting : after (exec .idle stateT) (fun t => (t.pcreg, t.statusWord)) = some (0#32, 0#32) ∧
    after (exec .halt { stateT with st := .done, pc := ⟨0x10#8, 0#8, 0#16⟩ }) (fun t => (t.pcreg, t.statusWord)) =
      some (0x10000000#32, 2#32) ∧
    after (exec .fault { stateT with st := .error, pc := ⟨0x11#8, 0#8, 0#16⟩, errcode := 2#4 })
      (fun t => (t.pcreg, t.statusWord)) = some (0x11000000#32, 0x00000023#32) := by decide

/-! ### Vectors: MERGE and MATH (3.7) -/

/-- R231, R232 worked examples -/
theorem test_merge_math : after (exec .merge (withPort stateT 0x16874042#32 0xDDDDDDDD#32 0xB0687635#32 0#32 .gs))
      (·.port.result) = some 0x36AE517F#32 ∧
    after (exec .math (withPort stateT 0xA1929A45#32 0x214E7C4D#32 0x9309667E#32 0#32 .gs)) (·.port.result) =
      some 0xD22D0C94#32 := by decide

/-- The rows of the MERGE table on `0x12345678`, `0x9ABCDEF0`, with the selectors `0`, `1`, `0xFFFF0002`, `0xFFFFFFFF`. -/
theorem test_merge_rows :
    [Instr.mergeRow0 0#30, .mergeRow1 0#30, .mergeRow2 0x3FFFC000#30, .mergeRow3 0x3FFFFFFF#30].map
      (fun i => after (exec i (withPort stateT 0x12345678#32 0x9ABCDEF0#32 0#32 0#32 .gs)) (·.port.result)) =
    [some 0xF37C0468#32, some 0x99999988#32, some 0xD26D8710#32, some 0x9E31CB6E#32] := by decide

/-- The rows of the MATH table. -/
def mathRows : List Instr :=
  [.mathRow0 0, .mathRow1 0, .mathRow2 0, .mathRow3 0, .mathRow4 0, .mathRow5 0, .mathRow6 0, .mathRow7 0, .mathRow8 0,
    .mathRow9 0, .mathRow10 0]

/-- The column `MATH(0x12345678, 0x9ABCDEF0)`. -/
theorem test_math_rows : mathRows.map
      (fun i => after (exec i (withPort stateT 0x12345678#32 0x9ABCDEF0#32 0#32 0#32 .gs)) (·.port.result)) =
    [some 0xACF13568#32, some 0x242D2080#32, some 0x0B00EA4E#32, some 0x12345678#32, some 0x56781234#32,
      some 0x56781234#32, some 0x12345670#32, some 0x9ABCDEF8#32, some 0x88888888#32, some 0x00000003#32,
      some 0x00000020#32] := by decide

/-- The column `MATH(33, 0x80000001)`: the rotate amount is `b`. -/
theorem test_math_rows_amount : mathRows.map
      (fun i => after (exec i (withPort stateT 33#32 0x80000001#32 0#32 0#32 .gs)) (·.port.result)) =
    [some 0x80000022#32, some 0x80000021#32, some 0x00000010#32, some 0x00000021#32, some 0x00000042#32,
      some 0x80000010#32, some 0x00000001#32, some 0x80000021#32, some 0x80000020#32, some 0x0000001A#32,
      some 0x00000004#32] := by decide

/-! ### Vectors: the host (3.8) -/

/-- V-H5, V-H16 -/
theorem test_start : after (exec .start stateM) (fun t => (t.statusWord, t.pcreg)) =
      some (0x00000001#32, 0x01000000#32) ∧
    after (exec .start { stateM with st := .error, werr := true, errcode := 2#4, errinfo := 4#32 })
      (fun t => (t.statusWord, t.errinfo)) = some (1#32, 0#32) := by decide

/-- V-H6; R47 -/
theorem test_start_refused : after (exec .start { stateM with st := .busy }) (fun t => (t.statusWord, t.core == stateM.core)) =
      some (0x00000005#32, true) ∧
    refusalOf (exec .start { stateM with seedHiHeld := false }) = some .startWithoutInputs := by decide

/-- V-H9, V-H10 -/
theorem test_abort : after (exec .abort { stateM with st := .busy, pc := ⟨0x08#8, 5#8, 0#16⟩, werr := true })
      (fun t => (t.statusWord, t.pcreg)) = some (0x00000004#32, 0#32) ∧
    exec .abort { stateM with st := .done, core := coreM } = .next { stateM with st := .done, core := coreM } :=
  ⟨by decide, rfl⟩

/-- V-H11 -/
theorem test_nop : exec .nop { stateM with st := .busy } = .next { stateM with st := .busy } := rfl

/-- V-H3, V-H4 -/
theorem test_host_writes : after (step (withInput { stateM with seed := 0x0123456789ABCDEF#64 }
      (.host (.write 0x014#32 32 0xFFFFFFFF#32)))) (·.seed) = some 0xFFFFFFFF89ABCDEF#64 ∧
    after (step (withInput { stateT with cache := [] } (.host (.write 0x80000034#32 32 0xDDDDDDDD#32))))
      (fun t => (t.cacheHeld 13, t.werr)) = some (some 0xDDDDDDDD#32, false) := by decide

/-- V-H12, V-H13 -/
theorem test_host_refused : [HostAccess.write 0x000#32 32 3#32, .write 0x000#32 32 0x11#32, .write 0x004#32 32 0#32,
      .write 0x020#32 32 0#32, .write 0x040#32 32 0#32, .write 0x010#32 16 7#32, .write 0x012#32 32 0#32].map
      (fun a => after (step (withInput stateM (.host a))) fun t => (t.werr, t.seed, t.pc == stateM.pc)) =
    List.replicate 7 (some (true, 0#64, true)) := by decide

/-- V-H14 and the `RD` of V-H8 -/
theorem test_host_reads : [0x004#32, 0x00C#32, 0x008#32, 0x020#32].map
      (fun o => after (step (withInput { stateM with
        st := .error, errcode := 2#4, errinfo := 4#32, pc := ⟨0x11#8, 0#8, 0#16⟩, core := digT }
        (.host (.read o 32)))) (·.rdata)) = [some 0x23#32, some 4#32, some 0x11000000#32, some 0#32] ∧
    after (step (withInput { stateM with st := .busy } (.host (.read 0x80000004#32 32)))) (·.rdata) = some 0#32 := by
  decide

/-- R100, R218: the traces of P1 and P2 have 1424 and 330 positions. -/
theorem test_run_lengths : runLength cfgT (fun _ => 8) = 1424 ∧ runLength cfgM (fun _ => 1) = 330 := by decide

/-- R99 -/
theorem test_written : written (.cacheop 3#8 1#16) = "CACHEOP 3, 1" ∧ written (.itemsel 63#8) = "ITEMSEL 63" ∧
    written .serial = "SERIAL" := by decide

/-! ### Words of the opcode table, and a step from reset on each of them -/

theorem test_table_words : [(32, 0x00000000), (32, 0x03000001), (32, 0x26000000), (32, 0x00000001), (8, 0x02), (16, 10)].map
      (fun p => decodeTableWord p.1 p.2) =
    [some .idle, some (.lanefill 1#16), some .math, some .start, some (.mergeRow2 0#30), some (.mathRow10 0)] := by decide

/-- Every micro-operation, primitive and command but START, which R47 refuses before the inputs are written. -/
theorem test_steps_from_reset : [0x00000000, 0x01000000, 0x02000000, 0x03000000, 0x04000000, 0x05000000, 0x06000002,
      0x07000000, 0x08000000, 0x09000000, 0x0A000000, 0x0B000000, 0x0C000000, 0x0D000000, 0x0E000000, 0x0F000000,
      0x10000000, 0x11000000, 0x20000000, 0x21000000, 0x22000000, 0x23000000, 0x24000000, 0x25000000, 0x26000000,
      0x00000002].all (fun w => completes (step (State.reset.withFetchWord 32 w))) = true := by decide

/-! ### Witnesses: states and operands that meet the hypotheses of the statements -/

/-- M in the middle of a computation, at a micro-operation, with a dataset that answers every index with one word. -/
def busyM (op r : BitVec 8) (idx : BitVec 16) : State :=
  { running stateM op r idx coreM with dataset := ⟨[(1#32, .fail 2#2)], .ok [0x12345678#32]⟩ }

/-- M standing at the first micro-operation of a computation. -/
def startM : State := { busyM 0x01#8 0#8 0#16 with core := Core.reset cfgM }

/-- M finished. -/
def doneM : State := { busyM 0x10#8 0#8 0#16 with st := .done }

/-- M after a fault. -/
def errorM : State := { busyM 0x11#8 0#8 0#16 with st := .error, werr := true, errcode := 2#4, errinfo := 1#32 }

/-- The invariant as a check that evaluates. -/
def meetsInv (s : State) : Bool :=
  s.cfg.wf && decide (s.core.Shape s.cfg) && decide s.CacheInWindow && decide s.PcFitsSt && decide s.AnswerFits &&
    decide s.ErrorFits && decide (s.st = .busy → s.inputsHeld = true) && decide (s.call = none) &&
    (!decide (0x06 ≤ s.pc.op.toNat ∧ s.pc.op.toNat ≤ 0x10) || decide (s.core.Permutations s.cfg))

theorem inv_of_meetsInv {s : State} (h : meetsInv s = true) : s.Inv := by
  simp only [meetsInv, Bool.and_eq_true, decide_eq_true_eq, Bool.or_eq_true, Bool.not_eq_true',
    decide_eq_false_iff_not] at h
  obtain ⟨⟨⟨⟨⟨⟨⟨⟨h1, h2⟩, h3⟩, h4⟩, h5⟩, h6⟩, h7⟩, h8⟩, h9⟩ := h
  exact ⟨h1, h2, h3, h4, h5, h6, h7, h8, fun a b => h9.resolve_left fun n => n ⟨a, b⟩⟩

theorem inv_startM : startM.Inv := inv_of_meetsInv (by decide)

theorem inv_doneM : doneM.Inv := inv_of_meetsInv (by decide)

theorem inv_errorM : errorM.Inv := inv_of_meetsInv (by decide)

theorem inv_lookupM : (busyM 0x08#8 0#8 0#16).Inv := inv_of_meetsInv (by decide)

theorem witness_decode_inverts_encode : Instr.wf (.dagmerge 63#8 0xFFFF#16) = true ∧ Instr.wf (.lookup 0#8) = true ∧
    Instr.wf (.mathRow3 390451572) = true ∧ Instr.wf (.mergeRow3 0x3FFFFFFF#30) = true := by decide

theorem witness_encode_inverts_decode : decode .S 0x0C3FFFFF#32 = .ok (.dagmerge 63#8 0xFFFF#16) ∧
    decode .mathSelector 0xFFFFFFFF#32 = .ok (.mathRow3 390451572) ∧ decode .H 0x00000002#32 = .ok .abort := by decide

/-- A word for each clause, at its boundary: the first unassigned code, a field that its code does not use, rounds 63 and 64. -/
theorem witness_reserved_words :
    (decode .S 0x12000000#32 = .rejected .unassignedOp ∧ decode .S 0x00000001#32 = .rejected .fieldNotZero ∧
      decode .S 0x11010000#32 = .rejected .fieldNotZero ∧ decode .S 0x0E010000#32 = .rejected .fieldNotZero ∧
      decode .S 0x07400000#32 = .rejected .roundAbove63 ∧ decode .S 0x083F0001#32 = .rejected .fieldNotZero ∧
      decode .S 0x0C400000#32 = .rejected .roundAbove63 ∧ decode .S 0x0C3FFFFF#32 = .ok (.dagmerge 63#8 0xFFFF#16)) ∧
    [busyM 0x12#8 0#8 0#16, busyM 0x01#8 0#8 1#16, busyM 0x07#8 64#8 0#16].all (fun s =>
      s.cfg.wf && decide (s.env = []) && decide (s.call = none) && (after (step s) fun _ => ()).isNone) = true ∧
    decode .S (busyM 0x07#8 64#8 0#16).pcreg = .rejected .roundAbove63 ∧
    (let s := busyM 0x02#8 0#8 1#16; s.cfg.wf = true ∧ s.env = [] ∧ s.call = none ∧
      decode .S s.pcreg = .ok (.laneseed 1#16) ∧ Instr.inRange s.cfg (.laneseed 1#16) = false) ∧
    Cfg.wf (State.cfg { stateM with cfg := { cfgM with numRegs := 1 } }) = false ∧
    (withInput stateM (.host (.write 0#32 32 3#32))).env = .host (.write 0#32 32 3#32) :: [] ∧ 3 ≤ (3#32).toNat := by
  decide

theorem witness_step_runs :
    (let s := busyM 0x06#8 0#8 2#16
     s.cfg.wf = true ∧ s.env = [] ∧ s.call = none ∧ decode .S s.pcreg = .ok (.fyswap 2#16) ∧
       Instr.inRange s.cfg (.fyswap 2#16) = true ∧
       completes (step s) = true ∧ completes (step { s with env := [.sequencer] }) = true) ∧
    (decode .H 2#32 = .ok .abort ∧ completes (step (withInput startM (.host (.write 0#32 32 2#32)))) = true) ∧
    (decode UnitKind.primitive.format 0x20000000#32 = .ok .fnv1a ∧
      let s := { startM with call := some ⟨.primitive, 0x20000000#32⟩ }
      completes (step s) = true ∧ after (step { s with env := [.sequencer] }) (·.call) = some none) ∧
    (decode UnitKind.mathSelector.format 10#32 = .ok (.mathRow10 0) ∧
      completes (step { startM with call := some ⟨.mathSelector, 10#32⟩ }) = true) := by decide

/-- The two states at LOOKUP: the request outstanding, and its answer held. -/
theorem witness_invariant_at_lookup : let s := busyM 0x08#8 0#8 0#16
    let s' := { busyM 0x08#8 63#8 0#16 with resp := some (.ok [0x12345678#32]) }
    s.Inv ∧ s'.Inv ∧ completes (step s) = true ∧ completes (step s') = true :=
  ⟨inv_lookupM, inv_of_meetsInv (by decide), by decide, by decide⟩

/-- Rest, the first micro-operation, the last one, HALT and FAULT. -/
theorem witness_invariant : (stateM.Inv ∧ completes (step stateM) = true) ∧
    (startM.Inv ∧ completes (step startM) = true) ∧
    ((busyM 0x0F#8 0#8 0#16).Inv ∧ completes (step (busyM 0x0F#8 0#8 0#16)) = true) ∧
    (doneM.Inv ∧ completes (step doneM) = true) ∧ (errorM.Inv ∧ completes (step errorM) = true) :=
  ⟨⟨inv_of_meetsInv (by decide), by decide⟩, ⟨inv_startM, by decide⟩, ⟨inv_of_meetsInv (by decide), by decide⟩,
    ⟨inv_doneM, by decide⟩, ⟨inv_errorM, by decide⟩⟩

theorem witness_reset_invariant : cfgM.wf = true ∧ cfgX.wf = true := by decide

theorem witness_step_is_safe : startM.Inv ∧ startM.env = [] := ⟨inv_startM, rfl⟩

/-- A micro-operation with nothing pending and on the sequencer's turn; a wait, and the answer that ends it. -/
theorem witness_computation_is_finite :
    (startM.Inv ∧ startM.st = .busy ∧ startM.lookupOutstanding = false ∧ startM.env = []) ∧
    (let s := withInput startM .sequencer
     s.Inv ∧ s.st = .busy ∧ s.lookupOutstanding = false ∧ s.env = .sequencer :: []) ∧
    ((busyM 0x08#8 0#8 0#16).Inv ∧ after (step (busyM 0x08#8 0#8 0#16)) (·.st) = some .busy) ∧
    (let s := withInput (busyM 0x08#8 63#8 0#16) .answer
     s.Inv ∧ s.st = .busy ∧ after (step s) (·.st) = some .busy) :=
  ⟨⟨inv_startM, by decide⟩, ⟨inv_of_meetsInv (by decide), by decide⟩, ⟨inv_lookupM, by decide⟩,
    inv_of_meetsInv (by decide), by decide⟩

theorem witness_answered_run : let s := { startM with dataset := ⟨[], .ok [7#32]⟩ }
    s.Inv ∧ s.st = .busy ∧ ∀ index, ∃ words, s.dataset.lookup index = .ok words ∧ words.length ≤ s.cfg.itemMax :=
  ⟨inv_of_meetsInv (by decide), rfl, fun _ => ⟨[7#32], rfl, by decide⟩⟩

/-- Two different core states before the same first micro-operation. -/
theorem witness_digest_depends : let s := startM
    let s' := { startM with core := coreM, werr := true }
    s.Inv ∧ s'.Inv ∧ s.core ≠ s'.core ∧ s.st = .busy ∧ s'.st = .busy ∧ s.pc = ⟨0x01#8, 0#8, 0#16⟩ ∧ s'.pc = s.pc ∧
    s'.cfg = s.cfg ∧ s'.seed = s.seed ∧ s'.height = s.height ∧ s'.cache = s.cache ∧ s'.dataset = s.dataset ∧
    completes (Host.Core.run Sys2Proof.core [Event.sequencer, .answer].length
      { s with env := [.sequencer, .answer] }) = true ∧
    completes (Host.Core.run Sys2Proof.core [Event.sequencer, .answer].length
      { s' with env := [.sequencer, .answer] }) = true :=
  ⟨inv_startM, inv_of_meetsInv (by decide), by decide⟩

/-- The share is met at LOOKUP and after it; the operations of another phase ask nothing. -/
theorem witness_written_run : cfgM.wf = true ∧ (∀ r : Nat, (fun _ => 1) r ≤ cfgM.itemMax / cfgM.numLanes) ∧
    (let s := { busyM 0x08#8 0#8 0#16 with resp := some (.ok [7#32]) }
     s.cfg = cfgM ∧ Instr.meetsShare (fun _ => 1) (.lookup 0#8) s ∧ completes (exec (.lookup 0#8) s) = true) ∧
    (let s := { busyM 0x09#8 0#8 0#16 with core := { coreM with wpl := 1 } }
     Instr.meetsShare (fun _ => 1) (.cacheop 0#8 0#16) s ∧ completes (exec (.cacheop 0#8 0#16) s) = true) ∧
    Instr.meetsShare (fun _ => 1) .mixseed startM :=
  ⟨by decide, fun _ => (by decide : 1 ≤ cfgM.itemMax / cfgM.numLanes), ⟨rfl, ⟨[7#32], rfl, by decide, rfl⟩, by decide⟩, ⟨rfl, by decide⟩, trivial⟩

theorem witness_run_length : cfgT.numLanes = 2 ∧ cfgT.numRegs = 4 ∧ cfgT.numCacheAccesses = 2 ∧
    cfgT.numMathOperations = 2 := by decide

theorem witness_odd_prime : cfgT.fnvPrime.toNat % 2 = 1 := by decide

theorem witness_generators : (withPort stateT 1#32 2#32 3#32 4#32 .gs).port.gen = .gs ∧
    (withPort stateT 1#32 2#32 3#32 4#32 .gl).port.gen = .gl := by decide

theorem witness_degenerate_words : (Kiss.mk 0#32 0#32 0#32 5#32).jsr = 0#32 ∧ (Kiss.mk 0#32 0#32 0#32 5#32).z = 0#32 ∧
    (Kiss.mk 0#32 0#32 0#32 5#32).w = 0#32 := by decide

theorem witness_lanefill : (0#16).toNat < coreT.mix.length ∧ (1#16).toNat < coreT.mix.length := by decide

theorem witness_initmix : startM.cfg.wf = true ∧ startM.env = [] ∧ startM.call = none ∧ startM.pc = ⟨0x01#8, 0#8, 0#16⟩ ∧
    startM.core.mix.length = startM.cfg.numLanes := by decide

theorem witness_fyswap : 2 ≤ (2#16).toNat ∧ (2#16).toNat ≤ cfgT.numRegs ∧ 2 ≤ (4#16).toNat ∧ (4#16).toNat ≤ cfgT.numRegs ∧
    coreT.dstSeq.length = cfgT.numRegs ∧ coreT.srcSeq.length = cfgT.numRegs := by decide

theorem witness_permutations : completes (exec .schseed startM) = true ∧ coreM.Permutations cfgM ∧
    coreT.Permutations cfgT ∧ completes (exec (.fyswap 2#16) { stateM with core := coreM }) = true ∧
    completes (exec (.fyswap 4#16) { stateT with core := coreT }) = true := by decide

/-- Two states at EPOCH with heights 100 and 149 of one epoch and different core states. -/
theorem witness_schedule_depends :
    let s := { State.resetWith cfgX with pc := ⟨0x04#8, 0#8, 0#16⟩, height := 100#64 }
    let s' := { State.resetWith cfgX with pc := ⟨0x04#8, 0#8, 0#16⟩, height := 149#64, seed := 9#64, core := coreT }
    s.cfg.wf = true ∧ s'.cfg = s.cfg ∧ s.env = [] ∧ s'.env = [] ∧ s.call = none ∧ s'.call = none ∧
      s.pc = ⟨0x04#8, 0#8, 0#16⟩ ∧
      s'.pc = ⟨0x04#8, 0#8, 0#16⟩ ∧ s.height.toNat / s.cfg.periodLength = s'.height.toNat / s.cfg.periodLength := by decide

theorem witness_itemsel : stateM.cfg.wf = true ∧ stateT.cfg.wf = true := by decide

/-- No answer; an answer that just fits; one word too many; both failures. -/
theorem witness_lookup : stateT.resp = none ∧
    (State.resp { stateT with resp := some (.ok (List.replicate 64 0#32)) } = some (.ok (List.replicate 64 0#32)) ∧
      (List.replicate 64 0#32).length ≤ stateT.cfg.itemMax) ∧
    (State.resp { stateT with resp := some (.fail 2#2) } = some (.fail 2#2) ∧
      State.resp { stateT with resp := some (.fail 0#2) } = some (.fail 0#2)) ∧
    (State.resp { stateT with resp := some (.ok (List.replicate 65 0#32)) } = some (.ok (List.replicate 65 0#32)) ∧
      stateT.cfg.itemMax < (List.replicate 65 0#32).length) := by decide

theorem witness_lookup_waits :
    ((busyM 0x08#8 0#8 0#16).Inv ∧ (busyM 0x08#8 0#8 0#16).env = [] ∧ (busyM 0x08#8 0#8 0#16).lookupOutstanding = true) ∧
    (let s := withInput (busyM 0x08#8 5#8 0#16) .answer
     s.cfg.wf = true ∧ s.env = .answer :: [] ∧ s.st = .busy ∧ s.pc.op = 0x08#8 ∧ s.resp = none) ∧
    ((withInput doneM .answer).env = .answer :: [] ∧ doneM.st ≠ .busy) ∧
    ((withInput startM .answer).env = .answer :: [] ∧ startM.pc.op ≠ 0x08#8) ∧
    State.resp { busyM 0x08#8 5#8 0#16 with resp := some (.ok []) } ≠ none ∧
    (withInput stateM .staleAnswer).env = .staleAnswer :: [] := ⟨⟨inv_lookupM, by decide⟩, by decide⟩

theorem witness_cacheop : stateT.cfg.wf = true ∧ (0 < ({ stateT with core := coreT } : State).core.mix.length) ∧
    (2 < (coreT.mix.getD 1 []).length) := by decide

theorem witness_source_pair : (2 ≤ cfgM.numRegs ∧ cfgM.numRegs ≤ 65535) ∧
    (let c : Cfg := { cfgM with numRegs := 65535 }
     2 ≤ c.numRegs ∧ c.numRegs ≤ 65535) ∧
    (0 < cfgM.numRegs ∧ 1 < cfgM.numRegs ∧ 0 ≠ 1) := by decide

theorem witness_dagplan : (0#16 : BitVec 16) = 0#16 ∧ (1#16 : BitVec 16) ≠ 0#16 := by decide

/-- The last entry, with an item that fills the buffer. -/
theorem witness_dagmerge :
    let s := { stateM with core := { coreM with wpl := 64, itemLen := 64, item := List.replicate 64 7#32 } }
    1 ≤ s.cfg.numLanes ∧ (63#16).toNat < s.core.wpl ∧ s.cfg.numLanes * s.core.wpl ≤ s.core.item.length ∧
      s.core.item.length ≤ s.cfg.itemMax ∧ 0 < s.core.mix.length := by decide

/-- An item of seven words for three lanes; two lanes, a power of two, in the last round. -/
theorem witness_lane_offset : (1 ≤ cfgX.numLanes ∧ 1 < 7 / cfgX.numLanes) ∧
    (cfgT.numLanes = 2 ^ 1 ∧ 1 ≤ 8 ∧ 1 < cfgT.numLanes ∧ laneOffset cfgT 8 1 63 = laneOffset cfgT 8 1 63) ∧
    laneOffset cfgT 8 0 63 = 8 ∧ laneOffset cfgT 8 1 63 = 0 := by decide

/-- Two states that differ in lane 1 only. -/
theorem witness_lanes : let s := { stateT with core := { coreT with item := List.replicate 2 7#32, itemLen := 2, wpl := 1 } }
    let s' := { s with core := { s.core with mix := [coreT.mix.getD 0 [], [1#32, 2#32, 3#32, 10#32]] } }
    s' = { s with core := { s.core with mix := s'.core.mix } } ∧ s ≠ s' ∧
    s'.core.mix.getD 0 [] = s.core.mix.getD 0 [] ∧ 0 < s.core.mix.length ∧ 0 < s'.core.mix.length ∧
    completes (exec (.mathop 0#8 0#16) s) = true ∧ completes (exec (.mathop 0#8 0#16) s') = true ∧
    completes (exec (.dagmerge 0#8 0#16) s) = true ∧ completes (exec (.dagmerge 0#8 0#16) s') = true ∧
    completes (exec (.cacheop 0#8 0#16) s) = true ∧ completes (exec (.cacheop 0#8 0#16) s') = true := by decide

/-- Configuration X has one cache access and three math operations. -/
theorem witness_round_targets : 0 < cfgX.numCacheAccesses ∧ (cfgX.numCacheAccesses ≤ 1 ∧ 1 < cfgX.numMathOperations) ∧
    (cfgX.numCacheAccesses ≤ 3 ∧ cfgX.numMathOperations ≤ 3) ∧ (62#8).toNat < 63 ∧ 63 ≤ (63#8).toNat := by decide

theorem witness_serial : cfgT.digestOrder = .le ∧ cfgX.digestOrder = .be := by decide

theorem witness_resting : (errorM.Inv ∧ errorM.st ≠ .busy ∧ errorM.env = []) ∧
    (doneM.Inv ∧ doneM.st ≠ .busy ∧ doneM.env = []) := ⟨⟨inv_errorM, by decide⟩, inv_doneM, by decide⟩

theorem witness_configured_functions : cfgT.merge = .defaultTable ∧ cfgT.math = .defaultTable ∧
    Cfg.wf { cfgT with merge := .external 0, math := .external 1 } = true := by decide

theorem witness_commands : startM.st = .busy ∧ (stateM.st ≠ .busy ∧ stateM.inputsHeld = true) ∧
    (State.reset.st ≠ .busy ∧ State.inputsHeld { stateM with heightHiHeld := false } = false) ∧ doneM.st ≠ .busy := by
  decide

theorem witness_host_writes : [0x010#32, 0x014#32, 0x018#32, 0x01C#32].all (fun o =>
      decide ((withInput stateM (.host (.write o 32 7#32))).env = .host (.write o 32 7#32) :: [])) = true ∧
    stateM.cfg.wf = true ∧ stateM.st ≠ .busy := by decide

/-- The first and the last word of the window. -/
theorem witness_cache_window : stateM.cfg.wf = true ∧ 0 < stateM.cfg.cacheSize ∧ 1 < stateM.cfg.cacheSize ∧
    stateM.st ≠ .busy ∧ stateM.cacheHeld 0 = some 0#32 ∧ stateM.cacheHeld 1 = some 0xFFFFFFFF#32 ∧ startM.st = .busy ∧
    [0, 1].all (fun k => completes (step (withInput stateM (.host (.write (BitVec.ofNat 32 (0x80000000 + 4 * k)) 32 5#32))))
      && completes (step (withInput startM (.host (.read (BitVec.ofNat 32 (0x80000000 + 4 * k)) 32))))) = true := by decide

theorem witness_host_reads : stateM.cfg.wf = true ∧ stateM.seedLoHeld = true ∧ stateM.seedHiHeld = true ∧
    stateM.heightLoHeld = true ∧ stateM.heightHiHeld = true ∧
    (withInput stateM (.host (.read 0x03C#32 32))).env =
      .host (.read (BitVec.ofNat 32 (0x020 + 4 * (7 : Fin 8).val)) 32) :: [] ∧
    (16 ≠ 32 ∧ (0x012#32).toNat % 4 ≠ 0) ∧
    [0x040#32, 0x7FFFFFFC#32].all (fun o => decide (0x040 ≤ o.toNat ∧ o.toNat ≤ 0x7FFFFFFC)) = true ∧
    [0x80000008#32, 0xFFFFFFFC#32].all (fun o => decide (0x80000000 + 4 * stateM.cfg.cacheSize ≤ o.toNat)) = true := by
  decide

/-- The bounds of each disjunct: the last cache word while BUSY, the first and the last digest word, the first and the last
unused offset below the window and the first above it. -/
theorem witness_refused_writes : startM.cfg.wf = true ∧ startM.st = .busy ∧
    (1 < startM.cfg.cacheSize ∧ (0x80000004#32).toNat = 0x80000000 + 4 * 1) ∧
    (0x020 ≤ (0x020#32).toNat ∧ (0x03C#32).toNat ≤ 0x03C) ∧
    (0x040 ≤ (0x040#32).toNat ∧ (0x7FFFFFFC#32).toNat ≤ 0x7FFFFFFC) ∧
    0x80000000 + 4 * startM.cfg.cacheSize ≤ (0x80000008#32).toNat ∧ 3 ≤ (3#32).toNat ∧
    (0x011#32).toNat % 4 ≠ 0 ∧ (64 : Nat) ≠ 32 ∧
    (withInput startM (.host (.write 0x7FFFFFFC#32 32 7#32))).env = .host (.write 0x7FFFFFFC#32 32 7#32) :: [] := by decide

/-- START out of ERROR clears `WERR` too; so does reset. -/
theorem witness_start_or_reset : (withInput errorM (.host (.write 0#32 32 1#32))).Inv ∧ errorM.werr = true ∧
    after (step (withInput errorM (.host (.write 0#32 32 1#32)))) (fun t => (t.werr, t.st)) = some (false, .busy) ∧
    after (step (withInput errorM .reset)) (fun t => (t.werr, t.st)) = some (false, .idle) :=
  ⟨inv_of_meetsInv (by decide), by decide⟩

theorem witness_running : startM.st = .busy ∧ completes (step startM) = true ∧
    (let s := withInput startM (.host (.write 0x010#32 32 7#32))
     completes (step s) = true ∧ s.env = .host (.write 0x010#32 32 7#32) :: [] ∧
       Event.host (.write 0x010#32 32 7#32) ≠ .sequencer ∧ Event.host (.write 0x010#32 32 7#32) ≠ .reset ∧
       (Event.host (.write 0x010#32 32 7#32)).isAbort = false) ∧
    (completes (step (withInput startM .answer)) = true ∧ Event.answer ≠ .sequencer ∧ Event.answer ≠ .reset ∧
      Event.answer.isAbort = false) := by decide

theorem witness_digest_stays : doneM.Inv ∧ doneM.st = .done ∧ completes (step doneM) = true ∧
    let s := withInput doneM (.host (.write 0#32 32 2#32))
    s.Inv ∧ completes (step s) = true ∧ Event.isStart (.host (.write 0#32 32 2#32)) = false :=
  ⟨inv_doneM, rfl, by decide, inv_of_meetsInv (by decide), by decide⟩

theorem witness_writers_of_st : after (exec .start stateM) (·.st) = some .busy ∧
    after (exec .abort startM) (·.st) = some .idle ∧ after (exec .serial (busyM 0x0F#8 0#8 0#16)) (·.st) = some .done ∧
    after (exec .halt (busyM 0x0F#8 0#8 0#16)) (·.st) = some .done ∧
    after (exec (.lookup 0#8) { busyM 0x08#8 0#8 0#16 with resp := some (.fail 1#2) }) (·.st) = some .error := by decide

theorem witness_reset_input : (withInput errorM .reset).cfg.wf = true ∧ (withInput errorM .reset).env = .reset :: [] := by
  decide

end Sys2Proof.Tests
end

section
/-! The dispatch of a step: what each agent that runs a word fetches, and the step that follows from it (R5, R6). -/

namespace Sys2Proof.Machine

open Sys2Proof

/-- The sequencer runs the micro-operation in `PC`, where it is one the successor function produces (R41, R91). -/
theorem fetchPc_of_inRange {s : State} {i : Instr} (hd : decode .S s.pcreg = .ok i) (hr : i.inRange s.cfg = true) :
    fetchPc s = .run i s := by
  unfold fetchPc; rw [hd]; exact if_pos hr

/-- A call in hand runs the operation that its unit's format gives its word (log entry 12). -/
theorem fetchCall_of_decode {call : Call} {i : Instr} (hd : decode call.kind.format call.word = .ok i) (s : State) :
    fetchCall call s = .run i s := by
  unfold fetchCall; rw [hd]

/-- A 32-bit write of a command to `CTRL` runs it, in any state (R250, R251). -/
theorem fetchHost_of_command {w : Word} {i : Instr} (hd : decode .H w = .ok i) (s : State) :
    fetchHost (.write 0#32 32 w) s = .run i s := by
  have hlegal : accessLegal 0#32 32 = true := by decide
  have hctrl : windowReg s.cfg 0#32 = .ctrl := rfl
  simp only [fetchHost, hlegal, hctrl, hd, if_true]

/-- The sequencer's turn with no call in hand. -/
theorem fetchSequencer_of_pc {s : State} {i : Instr} (hc : s.call = none) (hd : decode .S s.pcreg = .ok i)
    (hr : i.inRange s.cfg = true) : fetchSequencer s = .run i s :=
  (fetchSequencer_none hc).trans (fetchPc_of_inRange hd hr)

/-- The sequencer's turn with a call in hand, which it uses up. -/
theorem fetchSequencer_of_call {s : State} {call : Call} {i : Instr} (hc : s.call = some call)
    (hd : decode call.kind.format call.word = .ok i) : fetchSequencer s = .run i { s with call := none } :=
  (fetchSequencer_some hc).trans (fetchCall_of_decode hd _)

/-- Settles O5: in each of the five cases the turn of the agent that acts is known (`step_nil`, `step_sequencer`,
`step_host`), and so is what that agent fetches. -/
theorem stepRunsDecodedInstruction : Obligations.StepRunsDecodedInstruction := by
  intro s i hw
  refine ⟨fun he hc hd hr => ?pcIdle, fun rest he hc hd hr => ?pcTurn, fun w rest he hd => ?command,
    fun call he hc hd => ?callIdle, fun call rest he hc hd => ?callTurn⟩
  case pcIdle => rw [step_nil hw he, fetchSequencer_of_pc hc hd hr, Fetched.outcome_run]
  case pcTurn =>
    have hf : fetchSequencer { s with env := rest } = .run i { s with env := rest } := fetchSequencer_of_pc hc hd hr
    rw [step_sequencer hw he, hf, Fetched.outcome_run]
  case command => rw [step_host hw he, fetchHost_of_command hd, Fetched.outcome_run]
  case callIdle => rw [step_nil hw he, fetchSequencer_of_call hc hd, Fetched.outcome_run]
  case callTurn =>
    have hf : fetchSequencer { s with env := rest } = .run i { s with env := rest, call := none } :=
      fetchSequencer_of_call hc hd
    rw [step_sequencer hw he, hf, Fetched.outcome_run]

end Sys2Proof.Machine
end

section
/-! Where the micro-operations of a computation stand: the number a decoded word carries (R91, R92), the successors of R211 that
lead straight to a position, and which of these positions are below FYSWAP. -/

namespace Sys2Proof.Machine

open Sys2Proof Sys2Proof.Laws

/-! ### What format S admits -/

theorem decodePlain_ok {w : Word} {i j : Instr} (h : decodePlain w i = .ok j) : j = i := by
  unfold decodePlain at h
  split at h <;> cases h
  rfl

theorem decodeIdx_ok {w : Word} {f : BitVec 16 → Instr} {j : Instr} (h : decodeIdx w f = .ok j) : j = f (idxField w) := by
  unfold decodeIdx at h
  split at h <;> cases h
  rfl

theorem decodeRound_ok {w : Word} {f : BitVec 8 → Instr} {j : Instr} (h : decodeRound w f = .ok j) :
    j = f (roundField w) := by
  unfold decodeRound at h
  split at h
  · split at h <;> cases h
    rfl
  · cases h

theorem decodeRoundIdx_ok {w : Word} {f : BitVec 8 → BitVec 16 → Instr} {j : Instr} (h : decodeRoundIdx w f = .ok j) :
    j = f (roundField w) (idxField w) := by
  unfold decodeRoundIdx at h
  split at h <;> cases h
  rfl

/-- A word that format S admits carries in `OP` the number of the micro-operation it decodes to (R91, R92). -/
theorem decodeS_number {w : Word} {i : Instr} (h : decodeS w = .ok i) :
    i.format = .S ∧ (opField w).toNat = OpCode.number i := by
  unfold decodeS at h
  split at h
  case h_1 hop | h_2 hop | h_5 hop | h_6 hop | h_16 hop | h_17 hop | h_18 hop =>
    obtain rfl := decodePlain_ok h
    exact ⟨rfl, hop⟩
  case h_3 hop | h_4 hop | h_7 hop | h_14 hop | h_15 hop =>
    obtain rfl := decodeIdx_ok h
    exact ⟨rfl, hop⟩
  case h_8 hop | h_9 hop =>
    obtain rfl := decodeRound_ok h
    exact ⟨rfl, hop⟩
  case h_10 hop | h_11 hop | h_12 hop | h_13 hop =>
    obtain rfl := decodeRoundIdx_ok h
    exact ⟨rfl, hop⟩
  case h_19 => split at h <;> cases h

/-- Only LOOKUP has its number. -/
theorem decodeS_lookup {w : Word} {i : Instr} (h : decodeS w = .ok i) (hop : opField w = 0x08#8) :
    i = .lookup (roundField w) := by
  have hround : decodeS w = decodeRound w .lookup := by simp [decodeS, hop]
  exact decodeRound_ok (hround ▸ h)

/-- The number of the micro-operation in `PC` is the field `OP` of `PC` (R40). -/
theorem State.pc_op_of_decode {s : State} {i : Instr} (hd : decode .S s.pcreg = .ok i) :
    i.format = .S ∧ s.pc.op.toNat = OpCode.number i := by
  have h := decodeS_number hd
  rwa [State.pcreg_eq, opField_fieldsWord] at h

/-! ### The successors that lead straight to a position (R211) -/

theorem mixseed_working (c : Cfg) (wpl : Nat) : Pc.working c wpl ⟨0x01#8, 0#8, 0#16⟩ :=
  ⟨by decide, by decide, .mixseed, by decide, rfl, rfl⟩

theorem laneseed_working {c : Cfg} {l : BitVec 16} (hl : l.toNat < c.numLanes) (wpl : Nat) :
    Pc.working c wpl ⟨0x02#8, 0#8, l⟩ :=
  ⟨by simp, by simp, .laneseed l, by simp [decodeS_fieldsWord], decide_eq_true hl, rfl⟩

theorem lanehash_working {c : Cfg} {l : BitVec 16} (hl : l.toNat < c.numLanes) (wpl : Nat) :
    Pc.working c wpl ⟨0x0D#8, 0#8, l⟩ :=
  ⟨by simp, by simp, .lanehash l, by simp [decodeS_fieldsWord], decide_eq_true hl, rfl⟩

theorem digfold_working {c : Cfg} {l : BitVec 16} (hl : l.toNat < c.numLanes) (wpl : Nat) :
    Pc.working c wpl ⟨0x0E#8, 0#8, l⟩ :=
  ⟨by simp, by simp, .digfold l, by simp [decodeS_fieldsWord], decide_eq_true hl, rfl⟩

theorem fyswap_working {c : Cfg} {i : BitVec 16} (h2 : 2 ≤ i.toNat) (hi : i.toNat ≤ c.numRegs) (wpl : Nat) :
    Pc.working c wpl ⟨0x06#8, 0#8, i⟩ :=
  ⟨by simp, by simp, .fyswap i, by simp [decodeS_fieldsWord], by simp [Instr.inRange, h2, hi], rfl⟩

theorem mathop_working {c : Cfg} {r : BitVec 8} {i : BitVec 16} (hr : r.toNat ≤ 63)
    (hi : i.toNat < c.numMathOperations) (wpl : Nat) : Pc.working c wpl ⟨0x0A#8, r, i⟩ :=
  ⟨by simp, by simp, .mathop r i, by simp [decodeS_fieldsWord, hr], by simp [Instr.inRange, hr, hi], rfl⟩

/-- The next lane's number, where there is a next lane. -/
theorem nextLane_toNat {c : Cfg} (hc : c.wf = true) {l : BitVec 16} (h : l.toNat + 1 < c.numLanes) :
    (l + 1#16).toNat = l.toNat + 1 := by
  have hw := (Cfg.wf_iff c).1 hc
  simp only [BitVec.toNat_add, BitVec.toNat_ofNat]
  omega

theorem succMixseed_working {c : Cfg} (hc : c.wf = true) (wpl : Nat) : succMixseed.working c wpl :=
  laneseed_working (l := 0#16) ((Cfg.wf_iff c).1 hc).1 wpl

theorem succLaneseed_working {c : Cfg} {l : BitVec 16} (hl : l.toNat < c.numLanes) (wpl : Nat) :
    (succLaneseed l).working c wpl :=
  ⟨by simp [succLaneseed], by simp [succLaneseed], .lanefill l, by simp [succLaneseed, decodeS_fieldsWord],
    decide_eq_true hl, rfl⟩

theorem succEpoch_working (c : Cfg) (wpl : Nat) : succEpoch.working c wpl :=
  ⟨by decide, by decide, .schseed, by decide, rfl, rfl⟩

/-- LANEFILL goes on with the next lane, or with EPOCH. -/
theorem succLanefill_working {c : Cfg} (hc : c.wf = true) (l : BitVec 16) (wpl : Nat) :
    (succLanefill c l).working c wpl := by
  unfold succLanefill
  split
  case isTrue h => exact laneseed_working (by rwa [nextLane_toNat hc h]) wpl
  case isFalse => exact ⟨by decide, by decide, .epoch, by decide, rfl, rfl⟩

/-- The Fisher-Yates loop begins at `numRegs` (R151, R152). -/
theorem succSchseed_working {c : Cfg} (hc : c.wf = true) (wpl : Nat) : (succSchseed c).working c wpl := by
  obtain ⟨-, -, hlow, hhigh, -⟩ := (Cfg.wf_iff c).1 hc
  have hn : (BitVec.ofNat 16 c.numRegs).toNat = c.numRegs := idx_toNat hhigh
  exact fyswap_working (by omega) (by omega) wpl

/-- The Fisher-Yates loop counts down to 2; round 0 follows it. -/
theorem succFyswap_working {c : Cfg} {i : BitVec 16} (hi : i.toNat ≤ c.numRegs) (wpl : Nat) :
    (succFyswap i).working c wpl := by
  unfold succFyswap
  split
  case isTrue h =>
    have hn : (i - 1#16).toNat = i.toNat - 1 := by bv_omega
    exact fyswap_working (by omega) (by omega) wpl
  case isFalse => exact ⟨by decide, by decide, .itemsel 0#8, by decide, rfl, rfl⟩

theorem succItemsel_working {c : Cfg} {r : BitVec 8} (hr : r.toNat ≤ 63) (wpl : Nat) :
    (succItemsel r).working c wpl :=
  ⟨by simp [succItemsel], by simp [succItemsel], .lookup r, by simp [succItemsel, decodeS_fieldsWord, hr],
    decide_eq_true hr, rfl⟩

/-- CACHEOP is followed by the MATHOP of its iteration, where there is one (R183). -/
theorem succCacheop_working {c : Cfg} (hc : c.wf = true) {r : BitVec 8} (hr : r.toNat ≤ 63) {wpl : Nat}
    (hw : wpl ≤ c.itemMax / c.numLanes) (i : BitVec 16) : (succCacheop c wpl r i).working c wpl := by
  unfold succCacheop
  split
  case isTrue h => exact mathop_working hr h wpl
  case isFalse => exact seqBody_working hc hr hw _

theorem succLanehash_working {c : Cfg} (hc : c.wf = true) (l : BitVec 16) (wpl : Nat) :
    (succLanehash c l).working c wpl := by
  unfold succLanehash
  split
  case isTrue h => exact lanehash_working (by rwa [nextLane_toNat hc h]) wpl
  case isFalse => exact digfold_working (l := 0#16) ((Cfg.wf_iff c).1 hc).1 wpl

theorem succDigfold_working {c : Cfg} (hc : c.wf = true) (l : BitVec 16) (wpl : Nat) :
    (succDigfold c l).working c wpl := by
  unfold succDigfold
  split
  case isTrue h => exact digfold_working (by rwa [nextLane_toNat hc h]) wpl
  case isFalse => exact ⟨by decide, by decide, .serial, by decide, rfl, rfl⟩

/-- LANEFILL leads to a position below FYSWAP, where the permutation files are not written yet. -/
theorem succLanefill_op_lt (c : Cfg) (l : BitVec 16) : (succLanefill c l).op.toNat < 0x06 := by
  unfold succLanefill
  split <;> simp

end Sys2Proof.Machine
end

section
/-! What the draws and the writes of the micro-operations keep of the core state: its shape (R21 to R33) and the permutation
files (R28, R153). -/

namespace Sys2Proof.Machine

open Sys2Proof

/-! ### The shape -/

theorem Core.Shape.after_drawGs {c d : Cfg} {k : Core} (h : k.Shape d) : (drawGs c k).2.Shape d := h

theorem Core.Shape.after_nextSrc {c d : Cfg} {k : Core} (h : k.Shape d) : (nextSrc c k).2.Shape d := h

theorem Core.Shape.after_nextDst {c d : Cfg} {k : Core} (h : k.Shape d) : (nextDst c k).2.Shape d := h

theorem Core.Shape.wpl_le {c : Cfg} {k : Core} (h : k.Shape c) : k.wpl ≤ c.itemMax / c.numLanes := by
  obtain ⟨-, -, -, -, -, -, -, hlen, hwpl, -⟩ := h
  rw [hwpl]
  exact Nat.div_le_div_right hlen

/-- The lanes have room for `WPL` words of the item each (R66). -/
theorem Core.Shape.lanes_wpl_le {c : Cfg} {k : Core} (h : k.Shape c) : c.numLanes * k.wpl ≤ c.itemMax :=
  (Nat.mul_le_mul_left _ h.wpl_le).trans (Nat.mul_div_le _ _)

theorem Core.Shape.with_mix {c : Cfg} {k : Core} (h : k.Shape c) {mix : List (List Word)} {gl : Kiss}
    (hlen : mix.length = k.mix.length) (hrows : ∀ row ∈ mix, row.length = c.numRegs) :
    ({ k with mix := mix, gl := gl } : Core).Shape c := by
  obtain ⟨hm, -, hrest⟩ := h
  exact ⟨hlen.trans hm, hrows, hrest⟩

theorem Core.Shape.with_mixLanes {c : Cfg} {k : Core} (h : k.Shape c) (dst : Nat) (f : Nat → List Word → Word) :
    ({ k with mix := mixLanes k.mix dst f } : Core).Shape c := by
  obtain ⟨-, hrows, -⟩ := id h
  exact h.with_mix (mixLanes_length _ _ _) (mixLanes_rows dst f hrows)

/-- Files that are permutations of the register numbers have their lengths and bounds (R27). -/
theorem Core.Shape.with_files {c : Cfg} {k : Core} (h : k.Shape c) {gs : Kiss} {dst src : List Nat} {dc sc : Word}
    (hd : dst.Perm (List.range c.numRegs)) (hs : src.Perm (List.range c.numRegs)) :
    ({ k with gs := gs, dstSeq := dst, srcSeq := src, dstCnt := dc, srcCnt := sc } : Core).Shape c := by
  obtain ⟨hm, hrows, -, -, -, -, hrest⟩ := h
  exact ⟨hm, hrows, by simpa using hd.length_eq, fun x hx => List.mem_range.1 (hd.mem_iff.1 hx),
    by simpa using hs.length_eq, fun x hx => List.mem_range.1 (hs.mem_iff.1 hx), hrest⟩

/-- An item that fits the buffer, with the words per lane it gives (R31). -/
theorem Core.Shape.with_item {c : Cfg} {k : Core} (h : k.Shape c) {words : List Word} (hlen : words.length ≤ c.itemMax) :
    ({ k with item := words, itemLen := words.length, wpl := words.length / c.numLanes } : Core).Shape c := by
  obtain ⟨hm, hrows, hd, hdb, hs, hsb, -, -, -, hrest⟩ := h
  exact ⟨hm, hrows, hd, hdb, hs, hsb, rfl, hlen, rfl, hrest⟩

/-- One entry of the plan written, its destination a register number (R32). -/
theorem Core.Shape.with_plan {c : Cfg} {k : Core} (h : k.Shape c) (i : Nat) {dst : Nat} (sel : Word)
    (hdst : dst < c.numRegs) :
    ({ k with pdst := k.pdst.set i dst, psel := k.psel.set i sel } : Core).Shape c := by
  obtain ⟨hm, hrows, hd, hdb, hs, hsb, hi, hil, hw, hp, hpb, hsel, hh⟩ := h
  exact ⟨hm, hrows, hd, hdb, hs, hsb, hi, hil, hw, by simpa using hp, set_forall hpb hdst, by simpa using hsel, hh⟩

theorem Core.Shape.with_laneHash {c : Cfg} {k : Core} (h : k.Shape c) (l : Nat) (v : Word) :
    ({ k with laneHash := k.laneHash.set l v } : Core).Shape c := by
  obtain ⟨hm, hrows, hd, hdb, hs, hsb, hi, hil, hw, hp, hpb, hsel, hh⟩ := h
  exact ⟨hm, hrows, hd, hdb, hs, hsb, hi, hil, hw, hp, hpb, hsel, by simpa using hh⟩

/-! ### The permutation files -/

/-- An exchange of two entries leaves a file a permutation of the register numbers (R153). -/
theorem swapEntries_perm_range {xs : List Nat} {n i j : Nat} (h : xs.Perm (List.range n)) (hi : i < n) (hj : j < n) :
    (swapEntries xs i j).Perm (List.range n) := by
  have hlen : xs.length = n := by simpa using h.length_eq
  exact (swapEntries_perm xs i j (hlen ▸ hi) (hlen ▸ hj)).trans h

/-- The exchange of FYSWAP `i`: entry `i - 1` with the one a draw picks below `i` (R152). -/
theorem fyswap_perm {xs : List Nat} {n i : Nat} (h : xs.Perm (List.range n)) (h2 : 2 ≤ i) (hi : i ≤ n) (draw : Nat) :
    (swapEntries xs (i - 1) (draw % i)).Perm (List.range n) := by
  have hdraw : draw % i < i := Nat.mod_lt _ (by omega)
  exact swapEntries_perm_range h (by omega) (by omega)

/-- What SCHSEED leaves. -/
theorem execSchseed_permutations {s t : State} (h : execSchseed s = .next t) : t.core.Permutations s.cfg := by
  cases h
  exact ⟨List.Perm.refl _, List.Perm.refl _⟩

/-- What FYSWAP leaves, at a bound the schedule reaches. -/
theorem execFyswap_permutations {s t : State} {i : BitVec 16} (h2 : 2 ≤ i.toNat) (hi : i.toNat ≤ s.cfg.numRegs)
    (hp : s.core.Permutations s.cfg) (h : execFyswap i s = .next t) : t.core.Permutations s.cfg := by
  obtain ⟨hd, hs⟩ := hp
  cases h
  exact ⟨fyswap_perm hd h2 hi _, fyswap_perm hs h2 hi _⟩

/-- Settles O27: SCHSEED writes the identity twice; FYSWAP exchanges two entries of each file. -/
theorem scheduleFilesStayPermutations : Obligations.ScheduleFilesStayPermutations :=
  ⟨fun _ _ h => execSchseed_permutations h, fun _ _ _ h2 hi hp h => execFyswap_permutations h2 hi hp h⟩

end Sys2Proof.Machine
end

section
/-! The micro-operations of a running computation: each but LOOKUP and SERIAL writes core state and moves on to a position of the
computation, and keeps what a position asks of the core state. -/

namespace Sys2Proof.Machine

open Sys2Proof Sys2Proof.Laws

/-- What is true of core state and position between two micro-operations: the shape, a position the successor function
produces (R41), and from FYSWAP on both files permutations (R28). -/
structure MidRun (c : Cfg) (k : Core) (p : Pc) : Prop where
  shape : k.Shape c
  working : p.working c k.wpl
  permutations : 0x06 ≤ p.op.toNat → k.Permutations c

/-- The invariant gives it in every state of a running computation. -/
theorem State.Inv.midRun {s : State} (hs : s.Inv) (hb : s.st = .busy) : MidRun s.cfg s.core s.pc := by
  obtain ⟨-, hshape, -, ⟨-, hbusy, -⟩, -, -, -, -, hperm⟩ := hs
  have hw := s.atWork_iff.1 (hbusy hb)
  obtain ⟨-, hop, -⟩ := id hw
  exact ⟨hshape, hw, fun h => hperm h (by omega)⟩

/-! ### The operation at a position of a computation -/

section
variable {s : State} {i : Instr} (hm : MidRun s.cfg s.core s.pc) (hd : decode .S s.pcreg = .ok i)
include hm hd

/-- It is in range, and its entry number below `WPL` (R41, R187). -/
theorem MidRun.legal : i.inRange s.cfg = true ∧ Instr.entryBelow s.core.wpl i = true := by
  obtain ⟨-, -, j, hj, hr, he⟩ := hm.working
  obtain rfl : j = i := Decoded.ok.inj (hj.symm.trans hd)
  exact ⟨hr, he⟩

/-- It is one of MIXSEED to SERIAL. -/
theorem MidRun.operation : i.format = .S ∧ 0x01 ≤ OpCode.number i ∧ OpCode.number i ≤ 0x0F := by
  obtain ⟨hf, hn⟩ := State.pc_op_of_decode hd
  obtain ⟨hlow, hhigh, -⟩ := hm.working
  exact ⟨hf, hn ▸ hlow, hn ▸ hhigh⟩

theorem MidRun.permutations_at (hi : 0x06 ≤ OpCode.number i) : s.core.Permutations s.cfg :=
  hm.permutations ((State.pc_op_of_decode hd).2 ▸ hi)

end

/-! ### One lemma for each micro-operation -/

/-- The outcome is a next state that differs in core state and `PC` only, and goes on with the computation. -/
def Advances (s : State) (o : Result) : Prop :=
  ∃ k p, o = .next ((s.withCore k).goto p) ∧ MidRun s.cfg k p

section
variable {s : State} (hw : s.cfg.wf = true) (hm : MidRun s.cfg s.core s.pc)

include hw hm in
theorem execMixseed_advances : Advances s (execMixseed s) :=
  ⟨_, _, rfl, hm.shape, succMixseed_working hw _, fun h => absurd h (by decide)⟩

include hm in
theorem execLaneseed_advances {l : BitVec 16} (hd : decode .S s.pcreg = .ok (.laneseed l)) :
    Advances s (execLaneseed l s) := by
  have hl : l.toNat < s.cfg.numLanes := of_decide_eq_true (hm.legal hd).1
  exact ⟨_, _, rfl, hm.shape, succLaneseed_working hl _, fun h => by simp [succLaneseed] at h⟩

include hw hm in
theorem execLanefill_advances (l : BitVec 16) : Advances s (execLanefill l s) := by
  obtain ⟨-, hrows, -⟩ := id hm.shape
  exact ⟨_, _, rfl, hm.shape.with_mix (by simp) (set_forall hrows (by simp)), succLanefill_working hw l _,
    fun h => absurd (succLanefill_op_lt s.cfg l) (by omega)⟩

include hm in
theorem execEpoch_advances : Advances s (execEpoch s) :=
  ⟨_, _, rfl, hm.shape, succEpoch_working _ _, fun h => absurd h (by decide)⟩

include hw hm in
theorem execSchseed_advances : Advances s (execSchseed s) :=
  have hp := execSchseed_permutations (s := s) rfl
  ⟨_, _, rfl, hm.shape.with_files hp.1 hp.2, succSchseed_working hw _, fun _ => hp⟩

include hm in
theorem execFyswap_advances {i : BitVec 16} (hd : decode .S s.pcreg = .ok (.fyswap i)) : Advances s (execFyswap i s) := by
  obtain ⟨h2, hi⟩ : 2 ≤ i.toNat ∧ i.toNat ≤ s.cfg.numRegs := by simpa [Instr.inRange] using (hm.legal hd).1
  have hp := execFyswap_permutations h2 hi (hm.permutations_at hd (by simp [OpCode.number])) rfl
  exact ⟨_, _, rfl, hm.shape.with_files hp.1 hp.2, succFyswap_working hi _, fun _ => hp⟩

include hm in
theorem execItemsel_advances {r : BitVec 8} (hd : decode .S s.pcreg = .ok (.itemsel r)) : Advances s (execItemsel r s) := by
  have hr : r.toNat ≤ 63 := of_decide_eq_true (hm.legal hd).1
  have hp := hm.permutations_at hd (by simp [OpCode.number])
  exact ⟨_, _, rfl, hm.shape, succItemsel_working hr _, fun _ => hp⟩

include hw hm in
theorem execCacheop_advances {r : BitVec 8} {i : BitVec 16} (hd : decode .S s.pcreg = .ok (.cacheop r i)) :
    Advances s (execCacheop r i s) := by
  obtain ⟨hr, -⟩ : r.toNat ≤ 63 ∧ _ := by simpa [Instr.inRange] using (hm.legal hd).1
  have hp := hm.permutations_at hd (by simp [OpCode.number])
  exact ⟨_, _, if_pos (cacheop_guard hw _ _), hm.shape.after_nextSrc.after_nextDst.after_drawGs.with_mixLanes _ _,
    succCacheop_working hw hr hm.shape.wpl_le i, fun _ => hp⟩

include hw hm in
theorem execMathop_advances {r : BitVec 8} {i : BitVec 16} (hd : decode .S s.pcreg = .ok (.mathop r i)) :
    Advances s (execMathop r i s) := by
  obtain ⟨hr, -⟩ : r.toNat ≤ 63 ∧ _ := by simpa [Instr.inRange] using (hm.legal hd).1
  have hp := hm.permutations_at hd (by simp [OpCode.number])
  exact ⟨_, _, rfl, hm.shape.after_drawGs.after_drawGs.after_nextDst.after_drawGs.with_mixLanes _ _,
    seqBody_working hw hr hm.shape.wpl_le _, fun _ => hp⟩

/-- DAGPLAN plans a register number; where it takes one from NDST the cursor moves (R187). -/
theorem dagplan_dst {c : Cfg} (hc : c.wf = true) {k : Core} (h : k.Shape c) (i : BitVec 16) :
    ∃ dst n, dst < c.numRegs ∧ (if i = 0#16 then (0, k) else nextDst c k) = (dst, { k with dstCnt := n }) := by
  obtain ⟨-, -, -, hb, -⟩ := h
  obtain ⟨-, -, hr, -⟩ := (Cfg.wf_iff c).1 hc
  split
  · exact ⟨0, k.dstCnt, by omega, rfl⟩
  · exact ⟨_, _, nextDst_lt hb hr, rfl⟩

include hw hm in
theorem execDagplan_advances {r : BitVec 8} {i : BitVec 16} (hd : decode .S s.pcreg = .ok (.dagplan r i)) :
    Advances s (execDagplan r i s) := by
  obtain ⟨hr, -⟩ : r.toNat ≤ 63 ∧ _ := by simpa [Instr.inRange] using (hm.legal hd).1
  have hp := hm.permutations_at hd (by simp [OpCode.number])
  obtain ⟨dst, n, hdst, hplan⟩ := dagplan_dst hw hm.shape i
  have hmoved : Core.Shape s.cfg { s.core with dstCnt := n } := hm.shape
  simp only [execDagplan, hplan]
  exact ⟨_, _, rfl, hmoved.after_drawGs.with_plan _ _ hdst, seqPlan_working hw hr hm.shape.wpl_le _, fun _ => hp⟩

include hw hm in
theorem execDagmerge_advances {r : BitVec 8} {i : BitVec 16} (hd : decode .S s.pcreg = .ok (.dagmerge r i)) :
    Advances s (execDagmerge r i s) := by
  obtain ⟨hr, -⟩ : r.toNat ≤ 63 ∧ _ := by simpa [Instr.inRange] using (hm.legal hd).1
  have hi : i.toNat < s.core.wpl := of_decide_eq_true (hm.legal hd).2
  have hp := hm.permutations_at hd (by simp [OpCode.number])
  have hguard := dagmerge_guard ((Cfg.wf_iff _).1 hw).1 hi hm.shape.lanes_wpl_le s.core.mix r.toNat
  exact ⟨_, _, if_pos hguard, hm.shape.with_mixLanes _ _, seqDmerge_working hw hr hm.shape.wpl_le _, fun _ => hp⟩

include hw hm in
theorem execLanehash_advances {l : BitVec 16} (hd : decode .S s.pcreg = .ok (.lanehash l)) :
    Advances s (execLanehash l s) := by
  have hp := hm.permutations_at hd (by simp [OpCode.number])
  exact ⟨_, _, rfl, hm.shape.with_laneHash _ _, succLanehash_working hw l _, fun _ => hp⟩

include hw hm in
theorem execDigfold_advances {l : BitVec 16} (hd : decode .S s.pcreg = .ok (.digfold l)) :
    Advances s (execDigfold l s) := by
  have hp := hm.permutations_at hd (by simp [OpCode.number])
  exact ⟨_, _, rfl, hm.shape, succDigfold_working hw l _, fun _ => hp⟩

end

end Sys2Proof.Machine
end

section
/-! The states that end or begin a computation, the inputs that leave it alone, and the proof that every step keeps the
invariant. -/

namespace Sys2Proof.Machine

open Sys2Proof Sys2Proof.Laws

/-! ### What the instructions that write `ST` can do -/

/-- START (R257). -/
theorem execStart_cases {s t : State} (h : execStart s = .next t) :
    (s.st = .busy ∧ t = s.refuseWrite) ∨ (s.st ≠ .busy ∧ s.inputsHeld = true ∧ t = s.beginRun) := by
  unfold execStart at h
  split at h
  case isTrue hb => cases h; exact .inl ⟨hb, rfl⟩
  case isFalse hb =>
    split at h
    case isTrue hin => cases h; exact .inr ⟨hb, hin, rfl⟩
    case isFalse => cases h

/-- ABORT (R258). -/
theorem execAbort_cases {s t : State} (h : execAbort s = .next t) :
    (s.st = .busy ∧ t = s.abandonRun) ∨ (s.st ≠ .busy ∧ t = s) := by
  unfold execAbort at h
  split at h
  case isTrue hb => cases h; exact .inl ⟨hb, rfl⟩
  case isFalse hb => cases h; exact .inr ⟨hb, rfl⟩

/-- LOOKUP holds, takes the item of the answer, or raises the exception with cause 1, 2 or 3 (R182, R272). -/
theorem execLookup_cases {r : BitVec 8} {s t : State} (h : execLookup r s = .next t) :
    (s.resp = none ∧ t = s) ∨
    (∃ words, s.resp = some (.ok words) ∧ words.length ≤ s.cfg.itemMax ∧
      t = (s.takeItem words).goto (succLookup s.cfg (words.length / s.cfg.numLanes) r)) ∨
    (∃ cause ∈ [1#4, 2#4, 3#4], s.resp.isSome = true ∧ t = s.lookupFault cause s.core.itemIdx) := by
  unfold execLookup at h
  split at h
  case h_1 hresp => cases h; exact .inl ⟨hresp, rfl⟩
  case h_2 cause hresp =>
    cases h
    have hc : recordedCause cause ∈ [1#4, 2#4, 3#4] := by rcases recordedCause_cases cause with e | e <;> simp [e]
    exact .inr (.inr ⟨_, hc, by simp [hresp], rfl⟩)
  case h_3 words hresp =>
    split at h
    case isTrue hlen => cases h; exact .inr (.inl ⟨words, hresp, hlen, rfl⟩)
    case isFalse => cases h; exact .inr (.inr ⟨3#4, by simp, by simp [hresp], rfl⟩)

/-- Settles O59: the five writers of `ST` by their cases; every other operation leaves the field as it is. -/
theorem onlyFiveInstructionsWriteSt : Obligations.OnlyFiveInstructionsWriteSt := by
  intro i s t h hne
  cases i
  case start =>
    rcases execStart_cases h with ⟨-, rfl⟩ | ⟨-, -, rfl⟩
    · exact absurd rfl hne
    · exact .inl ⟨rfl, rfl⟩
  case abort =>
    rcases execAbort_cases h with ⟨hb, rfl⟩ | ⟨-, rfl⟩
    · exact .inr (.inl ⟨rfl, hb, rfl⟩)
    · exact absurd rfl hne
  case serial => cases h; exact .inr (.inr (.inl ⟨rfl, rfl⟩))
  case halt => cases h; exact .inr (.inr (.inr (.inl ⟨rfl, rfl⟩)))
  case lookup r =>
    rcases execLookup_cases h with ⟨-, rfl⟩ | ⟨_, -, -, rfl⟩ | ⟨_, -, hresp, rfl⟩
    · exact absurd rfl hne
    · exact absurd rfl hne
    · exact .inr (.inr (.inr (.inr ⟨⟨r, rfl⟩, hresp, rfl⟩)))
  case cacheop | dagmerge =>
    simp only [exec, execCacheop, execDagmerge] at h
    split at h <;> cases h
    exact absurd rfl hne
  case kseed | knext =>
    cases h
    exact absurd (by cases hg : s.port.gen <;> simp) hne
  all_goals
    cases h
    exact absurd rfl hne

/-! ### Reset (R48, R300) -/

/-- The reset state meets the invariant. -/
theorem resetWith_inv {c : Cfg} (hc : c.wf = true) : (State.resetWith c).Inv :=
  ⟨hc, Core.reset_shape hc, ⟨rfl, fun _ h => nomatch h⟩, ⟨fun _ => rfl, nofun, nofun, nofun⟩, .inl rfl,
    ⟨Nat.zero_le _, ⟨nofun, fun h => absurd rfl h⟩, fun _ => rfl⟩, nofun, rfl, fun h => absurd h (by simp [State.resetWith])⟩

/-- Settles O7: the suggested configuration of `State.reset` is a well-formed one. -/
theorem resetMeetsInvariant : Obligations.ResetMeetsInvariant :=
  ⟨fun _ hc => resetWith_inv hc, resetWith_inv (by decide)⟩

/-- No word of an empty memory holds a value (R46, R48). -/
theorem resetInput_cacheHeld (s : State) (k : Nat) : s.resetInput.cacheHeld k = none := rfl

/-- What the host reads at STATUS and PCREG after reset (R252, R253). -/
theorem resetInput_registers (s : State) : s.resetInput.statusWord = 0#32 ∧ s.resetInput.pcreg = 0#32 :=
  ⟨by simp [State.statusWord, State.resetWith, St.code], by simp [State.pcreg, State.resetWith]⟩

/-- Settles O60: the reset input writes the reset table over every element of the block. -/
theorem resetInputGivesResetTable : Obligations.ResetInputGivesResetTable := by
  intro s rest hw he
  obtain ⟨hstatus, hpcreg⟩ := resetInput_registers { s with env := rest }
  exact ⟨_, step_reset hw he, rfl, rfl, rfl, rfl, rfl, rfl, rfl, rfl, rfl, rfl, rfl, resetInput_cacheHeld _, hstatus,
    hpcreg⟩

/-! ### Updates that keep the invariant -/

theorem State.pcFitsSt_of_busy {s : State} (hb : s.st = .busy) (hw : s.atWork = true) : s.PcFitsSt :=
  ⟨by simp [hb], fun _ => hw, by simp [hb], by simp [hb]⟩

section
variable {s : State} (hs : s.Inv)
include hs

/-- What is no element of the block that the spec bounds may change. -/
theorem State.Inv.with_free (env : List Event) (werr : Bool) (v : Word) (n : Nat) :
    State.Inv { s with env := env, werr := werr, rdata := v, freeCount := n } := hs

/-- A refused host write (R260). -/
theorem State.Inv.refuseWrite : s.refuseWrite.Inv := hs.with_free s.env true s.rdata s.freeCount

/-- No answer is held but at LOOKUP in a running computation (R45, R73). -/
theorem State.Inv.resp_none (h : s.st = .busy → s.pc.op ≠ 0x08#8) : s.resp = none := by
  obtain ⟨-, -, -, -, hans, -⟩ := hs
  exact hans.resolve_right fun ⟨hb, hop, _⟩ => h hb hop

/-- With no answer held the dataset may change (R71). -/
theorem State.Inv.with_dataset (hr : s.resp = none) (d : Dataset) : State.Inv { s with dataset := d } := by
  obtain ⟨hwf, hshape, hcache, hpc, -, hrest⟩ := hs
  exact ⟨hwf, hshape, hcache, hpc, .inl hr, hrest⟩

theorem State.Inv.drop_answer : State.Inv { s with resp := none } := by
  obtain ⟨hwf, hshape, hcache, hpc, -, hrest⟩ := hs
  exact ⟨hwf, hshape, hcache, hpc, .inl rfl, hrest⟩

/-- Outside a computation the inputs may change; the cache stays canonical in its window (R254, R255). -/
theorem State.Inv.with_inputs (hb : s.st ≠ .busy) {seed height : U64} {sl sh hl hh : Bool} {m : Memory}
    (hm : State.CacheInWindow { s with cache := m }) :
    State.Inv { s with seed := seed, seedLoHeld := sl, seedHiHeld := sh, height := height, heightLoHeld := hl,
                       heightHiHeld := hh, cache := m } := by
  obtain ⟨hwf, hshape, -, ⟨hidle, -, hdone, herror⟩, hans, herr, -, hcall, hperm⟩ := hs
  exact ⟨hwf, hshape, hm, ⟨hidle, fun h => absurd h hb, hdone, herror⟩, hans, herr, fun h => absurd h hb, hcall, hperm⟩

/-- A cache word written inside the cache stays inside the window (R255). -/
theorem State.Inv.writeCache_inWindow {k : Nat} (hk : k < s.cfg.cacheSize) (v : Word) :
    (s.writeCache k v).CacheInWindow := by
  obtain ⟨-, -, ⟨hcanon, hwin⟩, -⟩ := hs
  refine ⟨Memory.wf_writeWord _ _ hcanon, fun cell hcell => ?_⟩
  rcases mem_writeWord hcell with ⟨hlow, hhigh⟩ | hold
  · simp only [State.writeCache_cfg, cacheAddr] at *
    omega
  · exact hwin cell hold

/-- The reset input, from any state that meets it. -/
theorem State.Inv.resetInput : s.resetInput.Inv := by
  obtain ⟨hwf, -⟩ := hs
  exact (resetWith_inv hwf).with_dataset rfl s.dataset

/-- A micro-operation that advances the computation. -/
theorem State.Inv.advance (hb : s.st = .busy) (hr : s.resp = none) {k : Core} {p : Pc} (hm : MidRun s.cfg k p) :
    ((s.withCore k).goto p).Inv := by
  obtain ⟨hwf, -, hcache, -, -, herr, hin, hcall, -⟩ := hs
  have hwork : ((s.withCore k).goto p).atWork = true := (State.atWork_iff _).2 hm.working
  exact ⟨hwf, hm.shape, hcache, State.pcFitsSt_of_busy hb hwork, .inl hr, herr, hin, hcall, fun h _ => hm.permutations h⟩

/-- START accepted (R257). -/
theorem State.Inv.beginRun (hin : s.inputsHeld = true) : s.beginRun.Inv := by
  obtain ⟨hwf, -, hcache, -, -, -, -, hcall, -⟩ := hs
  have hwork : s.beginRun.atWork = true :=
    (State.atWork_iff _).2 (mixseed_working _ _)
  exact ⟨hwf, Core.noValue_shape hwf _, hcache, State.pcFitsSt_of_busy rfl hwork, .inl rfl,
    ⟨Nat.zero_le _, ⟨nofun, fun h => absurd rfl h⟩, fun _ => rfl⟩, fun _ => hin, hcall, fun h => absurd h (by simp)⟩

/-- A computation abandoned (R258). -/
theorem State.Inv.abandonRun (hb : s.st = .busy) : s.abandonRun.Inv := by
  obtain ⟨hwf, -, hcache, -, -, ⟨hcode, hiff, hinfo⟩, -, hcall, -⟩ := hs
  have hne : s.st ≠ .error := by simp [hb]
  exact ⟨hwf, Core.noValue_shape hwf _, hcache, ⟨fun _ => rfl, nofun, nofun, nofun⟩, .inl rfl,
    ⟨hcode, ⟨nofun, fun h => absurd (hiff.2 h) hne⟩, fun _ => hinfo hne⟩, nofun, hcall, fun h => absurd h (by simp)⟩

/-- The fault entry (R274). -/
theorem State.Inv.lookupFault {cause : BitVec 4} (hc : cause ∈ [1#4, 2#4, 3#4]) (index : Word) :
    (s.lookupFault cause index).Inv := by
  obtain ⟨hwf, -, hcache, -, -, -, -, hcall, -⟩ := hs
  have hcause : cause.toNat ≤ 3 ∧ cause ≠ 0#4 := by
    simp only [List.mem_cons, List.not_mem_nil, or_false] at hc
    rcases hc with rfl | rfl | rfl <;> decide
  exact ⟨hwf, Core.noValue_shape hwf _, hcache, ⟨nofun, nofun, nofun, fun _ => rfl⟩, .inl rfl,
    ⟨hcause.1, ⟨fun _ => hcause.2, fun _ => rfl⟩, fun h => absurd rfl h⟩, nofun, hcall,
    fun _ h => absurd h (by simp)⟩

/-- SERIAL ends the computation (R214, R215). -/
theorem State.Inv.finish (hb : s.st = .busy) (hr : s.resp = none) (hp : s.core.Permutations s.cfg)
    (bytes : Vector Byte 32) : (s.withCore { s.core with digBytes := bytes }).enterHalt.Inv := by
  obtain ⟨hwf, hshape, hcache, -, -, ⟨hcode, hiff, hinfo⟩, -, hcall, -⟩ := hs
  have hne : s.st ≠ .error := by simp [hb]
  exact ⟨hwf, hshape, hcache, ⟨nofun, nofun, fun _ => rfl, nofun⟩, .inl hr,
    ⟨hcode, ⟨nofun, fun h => absurd (hiff.2 h) hne⟩, fun _ => hinfo hne⟩, nofun, hcall, fun _ _ => hp⟩

end

end Sys2Proof.Machine
end

section
/-! The invariant is kept by every turn of every agent. -/

namespace Sys2Proof.Machine

open Sys2Proof Sys2Proof.Laws

/-! ### The sequencer at rest -/

theorem State.goto_self {s : State} {p : Pc} (h : s.pc = p) : s.goto p = s := by
  subst h; rfl

theorem State.enterHalt_self {s : State} (hst : s.st = .done) (hpc : s.pc = ⟨0x10#8, 0#8, 0#16⟩) : s.enterHalt = s := by
  rw [State.enterHalt, ← hst, ← hpc]

/-- The operation at a known position. -/
theorem eq_of_decode_at {s : State} {p : Pc} {i j : Instr} (hd : decode .S s.pcreg = .ok i) (hpc : s.pc = p)
    (hj : decodeS p.word = .ok j) : i = j := by
  subst hpc
  exact Decoded.ok.inj (hd.symm.trans hj)

/-- Outside a computation the micro-operation in `PC` is a resting one and changes nothing (R215 to R217). -/
theorem State.Inv.exec_at_rest {s t : State} {i : Instr} (hs : s.Inv) (hb : s.st ≠ .busy)
    (hd : decode .S s.pcreg = .ok i) (h : exec i s = .next t) : t = s := by
  obtain ⟨-, -, -, ⟨hidle, -, hdone, herror⟩, -⟩ := hs
  cases hst : s.st
  case busy => exact absurd hst hb
  case idle =>
    obtain rfl := eq_of_decode_at (j := .idle) hd (hidle hst) (by decide)
    cases h
    exact State.goto_self (hidle hst)
  case done =>
    obtain rfl := eq_of_decode_at (j := .halt) hd (hdone hst) (by decide)
    cases h
    exact State.enterHalt_self hst (hdone hst)
  case error =>
    obtain rfl := eq_of_decode_at (j := .fault) hd (herror hst) (by decide)
    cases h
    exact State.goto_self (herror hst)

/-! ### The sequencer in a computation -/

/-- Every micro-operation of a computation but LOOKUP and SERIAL completes and moves on (R211). -/
theorem exec_advances {s : State} {i : Instr} (hw : s.cfg.wf = true) (hm : MidRun s.cfg s.core s.pc)
    (hd : decode .S s.pcreg = .ok i) (hlookup : ∀ r, i ≠ .lookup r) (hserial : i ≠ .serial) : Advances s (exec i s) := by
  have hop := hm.operation hd
  cases i
  case mixseed => exact execMixseed_advances hw hm
  case laneseed => exact execLaneseed_advances hm hd
  case lanefill => exact execLanefill_advances hw hm _
  case epoch => exact execEpoch_advances hm
  case schseed => exact execSchseed_advances hw hm
  case fyswap => exact execFyswap_advances hm hd
  case itemsel => exact execItemsel_advances hm hd
  case cacheop => exact execCacheop_advances hw hm hd
  case mathop => exact execMathop_advances hw hm hd
  case dagplan => exact execDagplan_advances hw hm hd
  case dagmerge => exact execDagmerge_advances hw hm hd
  case lanehash => exact execLanehash_advances hw hm hd
  case digfold => exact execDigfold_advances hw hm hd
  case lookup r => exact absurd rfl (hlookup r)
  case serial => exact absurd rfl hserial
  -- no other operation has the format and a number of a computation
  all_goals simp [Instr.format, OpCode.number] at hop

/-- LOOKUP keeps the invariant: it waits, takes an item and moves on, or enters the fault. -/
theorem State.Inv.exec_lookup {s t : State} {r : BitVec 8} (hs : s.Inv) (hb : s.st = .busy)
    (hd : decode .S s.pcreg = .ok (.lookup r)) (h : execLookup r s = .next t) : t.Inv := by
  have hm := hs.midRun hb
  have hr : r.toNat ≤ 63 := of_decide_eq_true (hm.legal hd).1
  have hp := hm.permutations_at hd (by simp [OpCode.number])
  obtain ⟨hwf, -⟩ := id hs
  rcases execLookup_cases h with ⟨-, rfl⟩ | ⟨words, -, hlen, rfl⟩ | ⟨cause, hc, -, rfl⟩
  · exact hs
  · exact hs.drop_answer.advance hb rfl
      ⟨hm.shape.with_item hlen, seqBody_working hwf hr (Nat.div_le_div_right hlen) 0, fun _ => hp⟩
  · exact hs.lookupFault hc _

/-- The sequencer's micro-operation keeps the invariant. -/
theorem State.Inv.exec_sequencer {s t : State} {i : Instr} (hs : s.Inv) (hd : decode .S s.pcreg = .ok i)
    (h : exec i s = .next t) : t.Inv := by
  by_cases hb : s.st = .busy
  case neg => exact hs.exec_at_rest hb hd h ▸ hs
  have hm := hs.midRun hb
  by_cases hlookup : ∃ r, i = .lookup r
  · obtain ⟨r, rfl⟩ := hlookup
    exact hs.exec_lookup hb hd h
  have hl : ∀ r, i ≠ .lookup r := fun r e => hlookup ⟨r, e⟩
  have hresp : s.resp = none := hs.resp_none fun _ hop =>
    hl _ (decodeS_lookup hd (by rw [State.pcreg_eq, opField_fieldsWord, hop]))
  by_cases hserial : i = .serial
  · subst hserial
    cases h
    exact hs.finish hb hresp (hm.permutations_at hd (by simp [OpCode.number])) _
  · obtain ⟨hwf, -⟩ := id hs
    obtain ⟨k, p, hk, hadv⟩ := exec_advances hwf hm hd hl hserial
    cases hk.symm.trans h
    exact hs.advance hb hresp hadv

/-! ### The other agents -/

/-- A host command keeps the invariant (R257 to R259). -/
theorem State.Inv.exec_command {s t : State} {w : Word} {i : Instr} (hs : s.Inv) (hd : decode .H w = .ok i)
    (h : exec i s = .next t) : t.Inv := by
  rcases decodeH_cases hd with ⟨-, rfl⟩ | ⟨-, rfl⟩ | ⟨-, rfl⟩
  · cases h
    exact hs
  · rcases execStart_cases h with ⟨-, rfl⟩ | ⟨-, hin, rfl⟩
    · exact hs.refuseWrite
    · exact hs.beginRun hin
  · rcases execAbort_cases h with ⟨hb, rfl⟩ | ⟨-, rfl⟩
    · exact hs.abandonRun hb
    · exact hs

/-- A host write to another register keeps it (R254, R255, R260). -/
theorem State.Inv.hostWriteData {s : State} (hs : s.Inv) (offset v : Word) :
    (s.hostWriteData (windowReg s.cfg offset) v).Inv := by
  obtain ⟨-, -, hcache, -⟩ := id hs
  rcases s.hostWriteData_cases (windowReg s.cfg offset) v with e | ⟨hb, hwrite⟩
  · exact e ▸ hs.refuseWrite
  · rcases hwrite with ⟨x, b, e⟩ | ⟨x, b, e⟩ | ⟨x, b, e⟩ | ⟨x, b, e⟩ | ⟨k, hk, e⟩ <;> rw [e]
    case inr.inr.inr.inr => exact hs.with_inputs hb (hs.writeCache_inWindow (windowReg_cacheWord hk) v)
    all_goals exact hs.with_inputs hb hcache

/-- The responder's answer keeps it: it is the dataset's, for the LOOKUP that asked (R71). -/
theorem State.Inv.takeAnswer {s : State} (hs : s.Inv) : s.takeAnswer.Inv := by
  obtain ⟨hwf, hshape, hcache, hpc, -, hrest⟩ := id hs
  rcases s.takeAnswer_cases with ⟨hb, hop, -, e⟩ | e <;> rw [e]
  · exact ⟨hwf, hshape, hcache, hpc, .inr ⟨hb, hop, rfl⟩, hrest⟩
  · exact hs

/-- Every turn keeps the invariant. -/
theorem State.Inv.turn {s t : State} {e : Event} (hs : s.Inv) (h : Turn s e t) : t.Inv := by
  cases h
  case sequencer i hcall hd hr h => exact hs.exec_sequencer hd h
  case call call i hcall hd h =>
    obtain ⟨-, -, -, -, -, -, -, hnone, -⟩ := hs
    cases hnone.symm.trans hcall
  case hostRead offset width =>
    obtain ⟨v, n, e⟩ := s.hostRead_frame offset width
    exact e ▸ hs.with_free s.env s.werr v n
  case command w i hd h => exact hs.exec_command hd h
  case hostData offset v hlegal hreg => exact hs.hostWriteData offset v
  case hostRefused => exact hs.refuseWrite
  case answer => exact hs.takeAnswer
  case staleAnswer => exact hs
  case dataset d hb => exact hs.with_dataset (hs.resp_none fun h => absurd h hb) d
  case reset => exact hs.resetInput

/-- Settles O6: a step is a turn of an agent, and the input that gave it its turn is no part of the invariant. -/
theorem stepKeepsInvariant : Obligations.StepKeepsInvariant := by
  intro s t hs h
  obtain ⟨-, ⟨-, hturn⟩ | ⟨e, rest, -, hturn⟩⟩ := step_turn h
  · exact hs.turn hturn
  · exact (hs.with_free rest s.werr s.rdata s.freeCount).turn hturn

end Sys2Proof.Machine
end

section
/-! The offset of a lane in the item: a slice of the item for every lane, and with a power of two of lanes a slice of its own (R66,
R189). -/

namespace Sys2Proof.Machine

open Sys2Proof

/-- A dataset merge reads inside the item, whatever its length (R66). -/
theorem laneOffset_add_lt_length {c : Cfg} {len i : Nat} (hn : 1 ≤ c.numLanes) (hi : i < len / c.numLanes) (l r : Nat) :
    laneOffset c (len / c.numLanes) l r + i < len :=
  Nat.lt_of_lt_of_le (laneOffset_add_lt hn hi l r) (Nat.mul_div_le len c.numLanes)

/-- Exclusive or with the round number permutes the lanes below a power of two (R189). -/
theorem xor_mod_two_pow_inj {n l l' r : Nat} (hl : l < 2 ^ n) (hl' : l' < 2 ^ n)
    (h : (l ^^^ r) % 2 ^ n = (l' ^^^ r) % 2 ^ n) : l = l' := by
  rw [Nat.xor_mod_two_pow, Nat.xor_mod_two_pow, Nat.mod_eq_of_lt hl, Nat.mod_eq_of_lt hl'] at h
  exact Nat.xor_left_inj.1 h

/-- With a power of two of lanes no two of them share a slice (R189). -/
theorem laneOffset_inj {c : Cfg} {n wpl r l l' : Nat} (hc : c.numLanes = 2 ^ n) (hw : 1 ≤ wpl) (hl : l < c.numLanes)
    (hl' : l' < c.numLanes) (h : laneOffset c wpl l r = laneOffset c wpl l' r) : l = l' := by
  have hslice : (l ^^^ r) % c.numLanes = (l' ^^^ r) % c.numLanes := Nat.eq_of_mul_eq_mul_right hw h
  rw [hc] at hl hl' hslice
  exact xor_mod_two_pow_inj hl hl' hslice

/-- Settles O39: the definition of the offset, its bound, and that it tells the lanes apart. -/
theorem laneOffsetStaysInsideItem : Obligations.LaneOffsetStaysInsideItem :=
  ⟨fun _ _ _ _ => rfl, fun _ _ l r _ hn hi => laneOffset_add_lt_length hn hi l r,
    fun _ _ _ _ _ _ hc hw hl hl' h => laneOffset_inj hc hw hl hl' h⟩

end Sys2Proof.Machine
end

section
/-! The wait for an answer and the answers that arrive (R70, R71, R73, R314). -/

namespace Sys2Proof.Machine

open Sys2Proof

/-- A state that a step leaves as it is stays through any number of steps. -/
theorem run_of_step_eq {M : Host.Core} {s : M.State} (h : M.step s = .next s) (n : Nat) : M.run n s = .next s := by
  induction n with
  | zero => rfl
  | succ n ih =>
    rw [Host.Core.run, h]
    exact ih

/-- A computation that stands at LOOKUP is about to run it. -/
theorem State.Inv.fetchPc_lookup {s : State} (hs : s.Inv) (hb : s.st = .busy) (hop : s.pc.op = 0x08#8) :
    ∃ r, fetchPc s = .run (.lookup r) s := by
  obtain ⟨-, -, i, hd, hr, -⟩ := (hs.midRun hb).working
  obtain rfl : i = .lookup _ := decodeS_lookup hd (by rw [opField_fieldsWord, hop])
  exact ⟨_, fetchPc_of_inRange hd hr⟩

/-- With no answer LOOKUP holds (R182). -/
theorem execLookup_of_resp_none {s : State} (hr : s.resp = none) (r : BitVec 8) : execLookup r s = .next s := by
  unfold execLookup; rw [hr]

/-- While its request is outstanding and nothing arrives, a step of the block changes nothing (R73). -/
theorem State.Inv.step_waiting {s : State} (hs : s.Inv) (he : s.env = []) (hout : s.lookupOutstanding = true) :
    step s = .next s := by
  obtain ⟨hb, hop, hresp⟩ := s.lookupOutstanding_iff.1 hout
  obtain ⟨r, hf⟩ := hs.fetchPc_lookup hb hop
  obtain ⟨hw, -, -, -, -, -, -, hcall, -⟩ := hs
  rw [step_nil hw he, fetchSequencer_none hcall, hf, Fetched.outcome_run]
  exact execLookup_of_resp_none hresp r

/-- The answer to the outstanding request is the dataset's (R71). -/
theorem State.takeAnswer_of_outstanding {s : State} (h : s.lookupOutstanding = true) :
    s.takeAnswer = { s with resp := some (s.dataset.lookup s.core.itemIdx) } := if_pos h

/-- The responder's turn changes nothing but the held answer (R70, R73). -/
theorem State.takeAnswer_frame (s : State) : ∃ r, s.takeAnswer = { s with resp := r } := by
  rcases s.takeAnswer_cases with ⟨-, -, -, e⟩ | e
  · exact ⟨_, e⟩
  · exact ⟨s.resp, e⟩

/-- With no request outstanding an answer is discarded (R73). -/
theorem State.takeAnswer_of_not_outstanding {s : State} (h : ¬ s.lookupOutstanding = true) : s.takeAnswer = s := if_neg h

/-- An answer to an abandoned request is discarded (R73). -/
theorem step_staleAnswer {s : State} {rest : List Event} (hw : s.cfg.wf = true) (he : s.env = .staleAnswer :: rest) :
    step s = .next { s with env := rest } := by
  unfold step fetch; rw [if_pos hw, he]; rfl

/-- Settles O33: a step that waits changes nothing, so neither do many; an answer counts only while its request is
outstanding. -/
theorem lookupWaitsForItsAnswer : Obligations.LookupWaitsForItsAnswer := by
  refine ⟨fun s hs he hout n => run_of_step_eq (M := Sys2Proof.core) (hs.step_waiting he hout) n,
    fun s rest hw => ⟨?asked, ?unasked, ?stale⟩⟩
  case asked =>
    intro he hb hop hresp
    have hout : State.lookupOutstanding { s with env := rest } = true :=
      (State.lookupOutstanding_iff _).2 ⟨hb, hop, hresp⟩
    rw [step_answer hw he, State.takeAnswer_of_outstanding hout]
  case unasked =>
    intro he hnot
    have hout : ¬ State.lookupOutstanding { s with env := rest } = true := fun hout => by
      obtain ⟨hb, hop, hresp⟩ := (State.lookupOutstanding_iff _).1 hout
      exact hnot.elim (· hb) (·.elim (· hop) (· hresp))
    rw [step_answer hw he, State.takeAnswer_of_not_outstanding hout]
  case stale => exact step_staleAnswer hw

end Sys2Proof.Machine
end

section
/-! What the agents leave alone: an instruction every input of the block, an agent other than the sequencer the computation and the
digest (R63, R77, R311). -/

namespace Sys2Proof.Machine

open Sys2Proof

/-! ### The inputs of a computation -/

/-- What a computation is given: the configuration, the host input state with the marks of what holds a value, the dataset
(R20, R44, R47). -/
def State.inputs (s : State) : Cfg × (U64 × Bool × Bool) × (U64 × Bool × Bool) × Memory × Dataset :=
  (s.cfg, (s.seed, s.seedLoHeld, s.seedHiHeld), (s.height, s.heightLoHeld, s.heightHiHeld), s.cache, s.dataset)

theorem State.inputs_eq_iff (s t : State) : t.inputs = s.inputs ↔
    t.cfg = s.cfg ∧ (t.seed = s.seed ∧ t.seedLoHeld = s.seedLoHeld ∧ t.seedHiHeld = s.seedHiHeld) ∧
      (t.height = s.height ∧ t.heightLoHeld = s.heightLoHeld ∧ t.heightHiHeld = s.heightHiHeld) ∧
      t.cache = s.cache ∧ t.dataset = s.dataset := by
  simp only [State.inputs, Prod.mk.injEq]

@[simp] theorem State.withGen_inputs (s : State) (sel : GenSel) (g : Kiss) : (s.withGen sel g).inputs = s.inputs := by
  cases sel <;> rfl

@[simp] theorem State.goto_inputs (s : State) (p : Pc) : (s.goto p).inputs = s.inputs := rfl
@[simp] theorem State.withCore_inputs (s : State) (k : Core) : (s.withCore k).inputs = s.inputs := rfl
@[simp] theorem State.withResult_inputs (s : State) (v : Word) : (s.withResult v).inputs = s.inputs := rfl
@[simp] theorem State.enterHalt_inputs (s : State) : s.enterHalt.inputs = s.inputs := rfl

/-- No instruction writes an input, START and ABORT included (R63, R257, R258). -/
theorem exec_inputs {i : Instr} {s t : State} (h : exec i s = .next t) : t.inputs = s.inputs := by
  cases i
  case start => rcases execStart_cases h with ⟨-, rfl⟩ | ⟨-, -, rfl⟩ <;> rfl
  case abort => rcases execAbort_cases h with ⟨-, rfl⟩ | ⟨-, rfl⟩ <;> rfl
  case lookup => rcases execLookup_cases h with ⟨-, rfl⟩ | ⟨_, -, -, rfl⟩ | ⟨_, -, -, rfl⟩ <;> rfl
  case cacheop | dagmerge =>
    simp only [exec, execCacheop, execDagmerge] at h
    split at h <;> cases h
    simp
  all_goals
    cases h
    simp

/-- While a computation runs a write to a register other than `CTRL` is refused (R260). -/
theorem State.hostWriteData_of_busy {s : State} (hb : s.st = .busy) (reg : WindowReg) (v : Word) :
    s.hostWriteData reg v = s.refuseWrite := if_pos hb

/-- While a computation runs no turn but reset writes an input (R63, R311). -/
theorem Turn.inputs_of_busy {s t : State} {e : Event} (h : Turn s e t) (hb : s.st = .busy) (hreset : e ≠ .reset) :
    t.inputs = s.inputs := by
  cases h
  case sequencer i _ _ _ h => exact exec_inputs h
  case call call i _ _ h =>
    have hin := exec_inputs h
    exact hin
  case command i _ h => exact exec_inputs h
  case hostRead offset width =>
    obtain ⟨v, n, e⟩ := s.hostRead_frame offset width
    rw [e]
    rfl
  case hostData offset v _ _ => rw [State.hostWriteData_of_busy hb]; rfl
  case hostRefused => rfl
  case answer =>
    obtain ⟨r, e⟩ := s.takeAnswer_frame
    rw [e]
    rfl
  case staleAnswer => rfl
  case dataset d hn => exact absurd hb hn
  case reset => exact absurd rfl hreset

/-! ### The computation and its digest -/

/-- How far the computation is: the core state, `PC` and `ST`. -/
def State.progress (s : State) : Core × Pc × St := (s.core, s.pc, s.st)

theorem State.progress_eq_iff (s t : State) : t.progress = s.progress ↔ t.core = s.core ∧ t.pc = s.pc ∧ t.st = s.st := by
  simp only [State.progress, Prod.mk.injEq]

/-- Of the commands START outside a computation and ABORT in one are the only ones that write it (R257 to R259). -/
theorem exec_command_progress {s t : State} {w : Word} {i : Instr} (hd : decode .H w = .ok i) (h : exec i s = .next t)
    (hstart : w = 1#32 → s.st = .busy) (habort : w = 2#32 → s.st ≠ .busy) :
    t.progress = s.progress ∧ t.resp = s.resp := by
  rcases decodeH_cases hd with ⟨-, rfl⟩ | ⟨hw, rfl⟩ | ⟨hw, rfl⟩
  · cases h
    exact ⟨rfl, rfl⟩
  · rcases execStart_cases h with ⟨-, rfl⟩ | ⟨hn, -⟩
    · exact ⟨rfl, rfl⟩
    · exact absurd (hstart hw) hn
  · rcases execAbort_cases h with ⟨hb, -⟩ | ⟨-, rfl⟩
    · exact absurd hb (habort hw)
    · exact ⟨rfl, rfl⟩

/-- A write to a register other than `CTRL` goes to an input or is refused (R254, R255, R260). -/
theorem State.hostWriteData_progress (s : State) (reg : WindowReg) (v : Word) :
    (s.hostWriteData reg v).progress = s.progress ∧ (s.hostWriteData reg v).resp = s.resp := by
  rcases s.hostWriteData_cases reg v with
    e | ⟨-, ⟨_, _, e⟩ | ⟨_, _, e⟩ | ⟨_, _, e⟩ | ⟨_, _, e⟩ | ⟨_, -, e⟩⟩
  all_goals
    rw [e]
    exact ⟨rfl, rfl⟩

/-- An agent other than the sequencer writes core state, `PC` and `ST` only by reset, by START outside a computation and by ABORT
in one; without these the host leaves a held answer alone too (R77, R311). -/
theorem Turn.progress_of_other {s t : State} {e : Event} (h : Turn s e t) (hseq : e ≠ .sequencer) (hreset : e ≠ .reset)
    (hstart : e.isStart = true → s.st = .busy) (habort : e.isAbort = true → s.st ≠ .busy) :
    t.progress = s.progress ∧ ((∃ a, e = .host a) → t.resp = s.resp) := by
  cases h
  case sequencer => exact absurd rfl hseq
  case call => exact absurd rfl hseq
  case hostRead offset width =>
    obtain ⟨v, n, e⟩ := s.hostRead_frame offset width
    rw [e]
    exact ⟨rfl, fun _ => rfl⟩
  case command w i hd h =>
    obtain ⟨hp, hr⟩ := exec_command_progress hd h (fun hw => hstart (by subst hw; rfl)) (fun hw => habort (by subst hw; rfl))
    exact ⟨hp, fun _ => hr⟩
  case hostData offset v _ _ =>
    obtain ⟨hp, hr⟩ := s.hostWriteData_progress (windowReg s.cfg offset) v
    exact ⟨hp, fun _ => hr⟩
  case hostRefused => exact ⟨rfl, fun _ => rfl⟩
  case answer =>
    obtain ⟨r, e⟩ := s.takeAnswer_frame
    rw [e]
    exact ⟨rfl, nofun⟩
  case staleAnswer => exact ⟨rfl, fun _ => rfl⟩
  case dataset d _ => exact ⟨rfl, fun _ => rfl⟩
  case reset => exact absurd rfl hreset

/-- Settles O57: the inputs by `Turn.inputs_of_busy`, the computation by `Turn.progress_of_other`, on the state from which the
input has been taken. -/
theorem runningComputationIsUndisturbed : Obligations.RunningComputationIsUndisturbed := by
  intro s t hb h
  obtain ⟨-, hturn⟩ := step_turn h
  constructor
  · intro hreset
    have hin : t.inputs = s.inputs := by
      rcases hturn with ⟨-, hturn⟩ | ⟨e, rest, he, hturn⟩
      · exact hturn.inputs_of_busy hb nofun
      · exact hturn.inputs_of_busy hb fun hr => hreset rest (hr ▸ he)
    obtain ⟨hcfg, ⟨hseed, hsl, hsh⟩, ⟨hheight, hhl, hhh⟩, hcache, hdata⟩ := (s.inputs_eq_iff t).1 hin
    exact ⟨hseed, hheight, hcache, hdata, hcfg, State.inputsHeld_congr hcfg hcache hsl hsh hhl hhh⟩
  · intro e rest he hseq hreset habort
    rcases hturn with ⟨hnil, -⟩ | ⟨e', rest', he', hturn⟩
    · cases hnil.symm.trans he
    obtain ⟨rfl, rfl⟩ : e' = e ∧ rest' = rest := List.cons.inj (he'.symm.trans he)
    obtain ⟨hp, hr⟩ := hturn.progress_of_other hseq hreset (fun _ => hb) (fun ha => by simp [habort] at ha)
    obtain ⟨hcore, hpc, hst⟩ := (State.progress_eq_iff _ t).1 hp
    exact ⟨hcore, hpc, hst.trans hb, hr⟩

/-! ### The outputs (R261, R262) -/

theorem State.doneOut_iff (s : State) : s.doneOut = true ↔ s.st = .done := beq_iff_eq

theorem State.errorOut_iff (s : State) : s.errorOut = true ↔ s.st = .error := beq_iff_eq

/-- In DONE the `digest_bytes` output is `DIGBYTES` (R262). -/
theorem State.digestOut_of_done {s : State} (hd : s.st = .done) (n : Fin 32) : s.digestOut n = s.core.digBytes[n] :=
  if_pos hd

/-- The sequencer at rest changes nothing (R215 to R217). -/
theorem State.Inv.turn_sequencer_at_rest {s t : State} (hs : s.Inv) (hb : s.st ≠ .busy) (h : Turn s .sequencer t) :
    t = s := by
  cases h
  case sequencer i _ hd _ h => exact hs.exec_at_rest hb hd h
  case call call i hcall _ _ =>
    obtain ⟨-, -, -, -, -, -, -, hnone, -⟩ := hs
    cases hnone.symm.trans hcall

/-- Outside a computation only START and reset write core state, `PC` or `ST` (R77). -/
theorem State.Inv.turn_progress_at_rest {s t : State} {e : Event} (hs : s.Inv) (hb : s.st ≠ .busy) (h : Turn s e t)
    (hstart : e.isStart = false) (hreset : e ≠ .reset) : t.progress = s.progress := by
  by_cases hseq : e = .sequencer
  · subst hseq
    rw [hs.turn_sequencer_at_rest hb h]
  · exact (h.progress_of_other hseq hreset (fun hr => by simp [hstart] at hr) (fun _ => hb)).1

/-- The same of a step. -/
theorem State.Inv.step_progress_at_rest {s t : State} (hs : s.Inv) (hb : s.st ≠ .busy) (h : step s = .next t)
    (hquiet : ∀ e rest, s.env = e :: rest → e.isStart = false ∧ e ≠ .reset) : t.progress = s.progress := by
  obtain ⟨-, ⟨-, hturn⟩ | ⟨e, rest, he, hturn⟩⟩ := step_turn h
  · exact hs.turn_progress_at_rest hb hturn rfl nofun
  · obtain ⟨hstart, hreset⟩ := hquiet e rest he
    exact (hs.with_free rest s.werr s.rdata s.freeCount).turn_progress_at_rest hb hturn hstart hreset

/-- Settles O58: the outputs are functions of `ST` and of the digest, which a step at rest leaves as they are. -/
theorem digestStaysWhenDone : Obligations.DigestStaysWhenDone := by
  refine ⟨fun s => ⟨s.doneOut_iff, s.errorOut_iff⟩, fun s hs hd => ⟨State.digestOut_of_done hd, fun t h hquiet => ?_⟩⟩
  have hb : s.st ≠ .busy := by simp [hd]
  obtain ⟨hcore, -, hst⟩ := (s.progress_eq_iff t).1 (hs.step_progress_at_rest hb h hquiet)
  have hdone : t.st = .done := hst.trans hd
  have herror : t.errorOut = false := by simp [State.errorOut, hdone]
  refine ⟨hdone, t.doneOut_iff.2 hdone, herror, by rw [hcore], by rw [hcore], fun n => ?_⟩
  rw [State.digestOut_of_done hdone, State.digestOut_of_done hd, hcore]

end Sys2Proof.Machine
end

section
/-! Encoding: the word of every well-formed operation reads back (R90 to R96), and a word that a format gives a meaning is the word
of that operation. -/

namespace Sys2Proof.Machine

open Sys2Proof Sys2Proof.Laws

/-! ### What the field decoders answer on a word put together from fields -/

@[simp] theorem decodePlain_fieldsWord (op : BitVec 8) (i : Instr) : decodePlain (fieldsWord op 0#8 0#16) i = .ok i := by
  simp [decodePlain]

@[simp] theorem decodeIdx_fieldsWord (op : BitVec 8) (l : BitVec 16) (f : BitVec 16 → Instr) :
    decodeIdx (fieldsWord op 0#8 l) f = .ok (f l) := by
  simp [decodeIdx]

theorem decodeRound_fieldsWord {r : BitVec 8} (hr : r.toNat ≤ 63) (op : BitVec 8) (f : BitVec 8 → Instr) :
    decodeRound (fieldsWord op r 0#16) f = .ok (f r) := by
  simp [decodeRound, hr]

theorem decodeRoundIdx_fieldsWord {r : BitVec 8} (hr : r.toNat ≤ 63) (op : BitVec 8) (l : BitVec 16)
    (f : BitVec 8 → BitVec 16 → Instr) : decodeRoundIdx (fieldsWord op r l) f = .ok (f r l) := by
  simp [decodeRoundIdx, hr]

/-! ### Decoding an encoded operation -/

/-- The quotient of a MATH selector (R96). -/
theorem mathSelectorWord_div {q k : Nat} (hk : k < 11) (h : 11 * q + k < 2 ^ 32) :
    (mathSelectorWord q k).toNat / 11 = q := by
  rw [mathSelectorWord_toNat q k h]
  omega

/-- A MATH selector reads back as its row and its quotient. -/
theorem decodeMathSelector_mathSelectorWord {q k : Nat} (hk : k < 11) (h : 11 * q + k < 2 ^ 32) :
    decodeMathSelector (mathSelectorWord q k) = .ok ([Instr.mathRow0, .mathRow1, .mathRow2, .mathRow3, .mathRow4, .mathRow5,
      .mathRow6, .mathRow7, .mathRow8, .mathRow9, .mathRow10][k] q) := by
  rw [decodeMathSelector, OpCode.math_row hk h, mathSelectorWord_div hk h]
  interval_cases k <;> rfl

/-- Settles O1: the word of an operation carries its number and its operands. -/
theorem decodeInvertsEncode : Obligations.DecodeInvertsEncode := by
  intro i hi
  cases i
  case idle | mixseed | epoch | schseed | serial | halt | fault =>
    simp [Instr.format, decode, encode, decodeS]
  case laneseed | lanefill | fyswap | lanehash | digfold =>
    simp [Instr.format, decode, encode, decodeS]
  case itemsel | lookup =>
    simp [Instr.format, decode, encode, decodeS, decodeRound_fieldsWord (of_decide_eq_true hi)]
  case cacheop | mathop | dagplan | dagmerge =>
    simp [Instr.format, decode, encode, decodeS, decodeRoundIdx_fieldsWord (of_decide_eq_true hi)]
  case fnv1a | kseed | knext | nsrc | ndst | merge | math =>
    simp [Instr.format, decode, encode, decodeP]
  case nop | start | abort => rfl
  case mergeRow0 | mergeRow1 | mergeRow2 | mergeRow3 =>
    simp [Instr.format, decode, encode, decodeMergeSelector]
  all_goals exact decodeMathSelector_mathSelectorWord (by decide) (of_decide_eq_true hi)

/-! ### Encoding a decoded word -/

section
variable {w : Word} {n : Nat} {j : Instr} (hop : (opField w).toNat = n)
include hop

/-- A word is its code, put together with its other two fields. -/
theorem fieldsWord_of_op : fieldsWord (BitVec.ofNat 8 n) (roundField w) (idxField w) = w := by
  rw [← hop, BitVec.ofNat_toNat, BitVec.setWidth_eq, fieldsWord_fields]

theorem fieldsWord_of_decodePlain {i : Instr} (h : decodePlain w i = .ok j) :
    j = i ∧ fieldsWord (BitVec.ofNat 8 n) 0#8 0#16 = w := by
  unfold decodePlain at h
  split at h <;> cases h
  case isTrue hz =>
    obtain ⟨hr, hi⟩ := hz
    exact ⟨rfl, by rw [← hr, ← hi, fieldsWord_of_op hop]⟩

theorem fieldsWord_of_decodeIdx {f : BitVec 16 → Instr} (h : decodeIdx w f = .ok j) :
    j = f (idxField w) ∧ fieldsWord (BitVec.ofNat 8 n) 0#8 (idxField w) = w := by
  unfold decodeIdx at h
  split at h <;> cases h
  case isTrue hr => exact ⟨rfl, by rw [← hr, fieldsWord_of_op hop]⟩

theorem fieldsWord_of_decodeRound {f : BitVec 8 → Instr} (h : decodeRound w f = .ok j) :
    j = f (roundField w) ∧ (roundField w).toNat ≤ 63 ∧ fieldsWord (BitVec.ofNat 8 n) (roundField w) 0#16 = w := by
  unfold decodeRound at h
  split at h
  case isTrue hr =>
    split at h <;> cases h
    case isTrue hi => exact ⟨rfl, hr, by rw [← hi, fieldsWord_of_op hop]⟩
  case isFalse => cases h

theorem fieldsWord_of_decodeRoundIdx {f : BitVec 8 → BitVec 16 → Instr} (h : decodeRoundIdx w f = .ok j) :
    j = f (roundField w) (idxField w) ∧ (roundField w).toNat ≤ 63 ∧
      fieldsWord (BitVec.ofNat 8 n) (roundField w) (idxField w) = w := by
  unfold decodeRoundIdx at h
  split at h <;> cases h
  case isTrue hr => exact ⟨rfl, hr, fieldsWord_of_op hop⟩

end

/-- `i` is a well-formed operation of format `f`, and `w` is its word. -/
def IsWordOf (f : Format) (w : Word) (i : Instr) : Prop := i.format = f ∧ i.wf = true ∧ encode i = w

theorem decodeS_isWordOf {w : Word} {i : Instr} (h : decodeS w = .ok i) : IsWordOf .S w i := by
  unfold decodeS at h
  split at h
  case h_1 hop | h_2 hop | h_5 hop | h_6 hop | h_16 hop | h_17 hop | h_18 hop =>
    obtain ⟨rfl, hw⟩ := fieldsWord_of_decodePlain hop h
    exact ⟨rfl, rfl, hw⟩
  case h_3 hop | h_4 hop | h_7 hop | h_14 hop | h_15 hop =>
    obtain ⟨rfl, hw⟩ := fieldsWord_of_decodeIdx hop h
    exact ⟨rfl, rfl, hw⟩
  case h_8 hop | h_9 hop =>
    obtain ⟨rfl, hr, hw⟩ := fieldsWord_of_decodeRound hop h
    exact ⟨rfl, decide_eq_true hr, hw⟩
  case h_10 hop | h_11 hop | h_12 hop | h_13 hop =>
    obtain ⟨rfl, hr, hw⟩ := fieldsWord_of_decodeRoundIdx hop h
    exact ⟨rfl, decide_eq_true hr, hw⟩
  case h_19 => split at h <;> cases h

theorem decodeP_isWordOf {w : Word} {i : Instr} (h : decodeP w = .ok i) : IsWordOf .P w i := by
  unfold decodeP at h
  split at h
  case h_1 hop | h_2 hop | h_3 hop | h_4 hop | h_5 hop | h_6 hop | h_7 hop =>
    obtain ⟨rfl, hw⟩ := fieldsWord_of_decodePlain hop h
    exact ⟨rfl, rfl, hw⟩
  case h_8 => split at h <;> cases h

theorem decodeH_isWordOf {w : Word} {i : Instr} (h : decode .H w = .ok i) : IsWordOf .H w i := by
  rcases decodeH_cases h with ⟨rfl, rfl⟩ | ⟨rfl, rfl⟩ | ⟨rfl, rfl⟩ <;> exact ⟨rfl, rfl, rfl⟩

/-- A MERGE selector is put together from its other bits and its row. -/
theorem mergeSelectorWord_of_row {w : Word} {n : Nat} (hrow : (w.extractLsb' 0 2).toNat = n) :
    mergeSelectorWord (selectorHigh w) (BitVec.ofNat 2 n) = w := by
  rw [← hrow, BitVec.ofNat_toNat, BitVec.setWidth_eq, mergeSelectorWord_fields]

theorem decodeMergeSelector_isWordOf {w : Word} {i : Instr} (h : decodeMergeSelector w = .ok i) :
    IsWordOf .mergeSelector w i := by
  unfold decodeMergeSelector at h
  split at h <;> cases h
  case h_1 hrow | h_2 hrow | h_3 hrow => exact ⟨rfl, rfl, mergeSelectorWord_of_row hrow⟩
  case h_4 h0 h1 h2 =>
    have hrow : (w.extractLsb' 0 2).toNat = 3 := by
      rw [imp_false] at h0 h1 h2
      omega
    exact ⟨rfl, rfl, mergeSelectorWord_of_row hrow⟩

/-- A MATH selector is put together from its quotient and its row. -/
theorem mathSelectorWord_div_mod (w : Word) : mathSelectorWord (w.toNat / 11) (w.toNat % 11) = w := by
  rw [mathSelectorWord, Nat.div_add_mod, BitVec.ofNat_toNat, BitVec.setWidth_eq]

theorem decodeMathSelector_isWordOf {w : Word} {i : Instr} (h : decodeMathSelector w = .ok i) :
    IsWordOf .mathSelector w i := by
  obtain ⟨q, k, hk, hlt, rfl⟩ : ∃ q k, k < 11 ∧ 11 * q + k < 2 ^ 32 ∧ mathSelectorWord q k = w :=
    ⟨w.toNat / 11, w.toNat % 11, Nat.mod_lt _ (by decide), by omega, mathSelectorWord_div_mod w⟩
  obtain rfl := Decoded.ok.inj ((decodeMathSelector_mathSelectorWord hk hlt).symm.trans h)
  interval_cases k <;> exact ⟨rfl, decide_eq_true hlt, rfl⟩

/-- Settles O2: a word is put together from the fields its format's decoder reads, and those it does not read are zero. -/
theorem encodeInvertsDecode : Obligations.EncodeInvertsDecode := by
  intro f w i h
  cases f
  case S => exact decodeS_isWordOf h
  case P => exact decodeP_isWordOf h
  case H => exact decodeH_isWordOf h
  case mergeSelector => exact decodeMergeSelector_isWordOf h
  case mathSelector => exact decodeMathSelector_isWordOf h

/-- Settles O3: each word written out is the word of its operation, which O1 reads back. -/
theorem writtenWordsDecode : Obligations.WrittenWordsDecode :=
  ⟨decodeInvertsEncode (.itemsel 63#8) rfl, decodeInvertsEncode (.cacheop 3#8 1#16) rfl,
    decodeInvertsEncode (.mathop 0#8 0#16) rfl, decodeInvertsEncode (.fyswap 4#16) rfl,
    decodeInvertsEncode (.lanefill 1#16) rfl, decodeInvertsEncode .serial rfl, decodeInvertsEncode (.lookup 5#8) rfl,
    decodeInvertsEncode .knext rfl, decodeInvertsEncode .start rfl, decodeInvertsEncode (.mergeRow1 0x2C1A1D8D#30) rfl,
    decodeInvertsEncode (.mathRow5 224260619) rfl⟩

end Sys2Proof.Machine
end

section
/-! Refusals: which words have no meaning (R91, R94, R97), and what a step answers on them, on an unreachable position (R41) and on
an ill-formed configuration (R9). -/

namespace Sys2Proof.Machine

open Sys2Proof

/-! ### The words that have no meaning -/

section
variable (w : Word)

theorem opField_toNat : (opField w).toNat = w.toNat / 2 ^ 24 := by
  rw [opField, BitVec.extractLsb'_toNat, Nat.shiftRight_eq_div_pow]
  omega

theorem roundField_toNat : (roundField w).toNat = w.toNat / 2 ^ 16 % 2 ^ 8 := by
  rw [roundField, BitVec.extractLsb'_toNat, Nat.shiftRight_eq_div_pow]

theorem idxField_toNat : (idxField w).toNat = w.toNat % 2 ^ 16 := by
  rw [idxField, BitVec.extractLsb'_toNat, Nat.shiftRight_zero]

theorem decodePlain_rejected_iff (i : Instr) :
    (∃ e, decodePlain w i = .rejected e) ↔ (roundField w).toNat ≠ 0 ∨ (idxField w).toNat ≠ 0 := by
  unfold decodePlain
  split <;> simp_all [← BitVec.toNat_inj, imp_iff_not_or]

theorem decodeIdx_rejected_iff (f : BitVec 16 → Instr) :
    (∃ e, decodeIdx w f = .rejected e) ↔ (roundField w).toNat ≠ 0 := by
  unfold decodeIdx
  split <;> simp_all [← BitVec.toNat_inj]

theorem decodeRound_rejected_iff (f : BitVec 8 → Instr) :
    (∃ e, decodeRound w f = .rejected e) ↔ 63 < (roundField w).toNat ∨ (idxField w).toNat ≠ 0 := by
  unfold decodeRound
  split
  case isTrue => split <;> simp_all [← BitVec.toNat_inj]
  case isFalse => simp_all

theorem decodeRoundIdx_rejected_iff (f : BitVec 8 → BitVec 16 → Instr) :
    (∃ e, decodeRoundIdx w f = .rejected e) ↔ 63 < (roundField w).toNat := by
  unfold decodeRoundIdx
  split <;> simp_all

variable {w} in
/-- Which words format S gives no meaning, in the numbers of their three fields. -/
theorem decodeS_rejected_iff {op r idx : Nat} (hop : (opField w).toNat = op) (hr : (roundField w).toNat = r)
    (hidx : (idxField w).toNat = idx) : (∃ e, decodeS w = .rejected e) ↔
      0x12 ≤ op ∨ (op ∈ [0x00, 0x01, 0x04, 0x05, 0x0F, 0x10, 0x11] ∧ (r ≠ 0 ∨ idx ≠ 0)) ∨
        (op ∈ [0x02, 0x03, 0x06, 0x0D, 0x0E] ∧ r ≠ 0) ∨ (op ∈ [0x07, 0x08] ∧ (63 < r ∨ idx ≠ 0)) ∨
        (op ∈ [0x09, 0x0A, 0x0B, 0x0C] ∧ 63 < r) := by
  subst hop hr hidx
  unfold decodeS
  split
  case h_1 hop | h_2 hop | h_5 hop | h_6 hop | h_16 hop | h_17 hop | h_18 hop =>
    rw [decodePlain_rejected_iff]
    simp [hop]
  case h_3 hop | h_4 hop | h_7 hop | h_14 hop | h_15 hop =>
    rw [decodeIdx_rejected_iff]
    simp [hop]
  case h_8 hop | h_9 hop =>
    rw [decodeRound_rejected_iff]
    simp [hop]
  case h_10 hop | h_11 hop | h_12 hop | h_13 hop =>
    rw [decodeRoundIdx_rejected_iff]
    simp [hop]
  case h_19 =>
    have hop : 0x12 ≤ (opField w).toNat := by
      simp only [imp_false] at *
      omega
    exact iff_of_true (by split <;> exact ⟨_, rfl⟩) (.inl hop)

end

/-- `CMD` at or above 3 is reserved (R94). -/
theorem decodeH_of_reserved {w : Word} (h : 3 ≤ w.toNat) : decode .H w = .rejected .reservedCommand := by
  simp only [decode, decodeH]
  split
  case h_4 => rfl
  all_goals omega

/-! ### What a step answers on them -/

section
variable {s : State} (hw : s.cfg.wf = true)
include hw

/-- A word in `PC` that is no micro-operation (R97). -/
theorem step_of_rejected {e : DecodeError} (he : s.env = []) (hc : s.call = none)
    (hd : decode .S s.pcreg = .rejected e) : step s = .refused (.undecodable e) := by
  rw [step_nil hw he, fetchSequencer_none hc, fetchPc, hd, Fetched.outcome_settled]

/-- A position that the successor function cannot produce (R41). -/
theorem step_of_not_inRange {i : Instr} (he : s.env = []) (hc : s.call = none) (hd : decode .S s.pcreg = .ok i)
    (hr : i.inRange s.cfg = false) : step s = .refused .pcUnreachable := by
  rw [step_nil hw he, fetchSequencer_none hc, fetchPc, hd]
  simp only [hr]
  rfl

/-- A reserved word written to `CTRL` (R251). -/
theorem step_of_reservedCommand {w : Word} {rest : List Event} (he : s.env = .host (.write 0#32 32 w) :: rest)
    (h : 3 ≤ w.toNat) : step s = .next { s with env := rest, werr := true } := by
  have hlegal : accessLegal 0#32 32 = true := by decide
  have hctrl : windowReg s.cfg 0#32 = .ctrl := rfl
  rw [step_host hw he]
  simp only [fetchHost, hlegal, hctrl, decodeH_of_reserved h, if_true]
  rfl

end

/-- A configuration that is not well-formed (R9). -/
theorem step_of_illFormedConfig {s : State} (hw : s.cfg.wf = false) : step s = .refused .illFormedConfig := by
  unfold step fetch
  rw [hw]
  rfl

/-- Settles O4: format S in numbers, and one clause for each way a step refuses or sets `WERR`. -/
theorem reservedWordsRejected : Obligations.ReservedWordsRejected := by
  refine ⟨fun w => ?words, fun _ _ hw he hc hd => step_of_rejected hw he hc hd,
    fun _ _ hw he hc hd hr => step_of_not_inRange hw he hc hd hr, fun _ hw => step_of_illFormedConfig hw,
    fun _ _ _ hw he h => step_of_reservedCommand hw he h⟩
  exact decodeS_rejected_iff (opField_toNat w) (roundField_toNat w) (idxField_toNat w)

end Sys2Proof.Machine
end

section
/-! The written run HASHMIX against the machine (R100, R210, R211): a list of micro-operations is followed from the position
where it begins to the position where it ends, block by block, and a list that can be followed is a chain of neighbours. -/

namespace Sys2Proof.Machine

open Sys2Proof

/-! ### Following a written list -/

/-- Where a micro-operation of a computation leads (R211), where round `r` has `wpls r` words per lane. -/
def Instr.successor (c : Cfg) (wpls : Nat → Nat) : Instr → Option Pc
  | .mixseed => some succMixseed
  | .laneseed l => some (succLaneseed l)
  | .lanefill l => some (succLanefill c l)
  | .epoch => some succEpoch
  | .schseed => some (succSchseed c)
  | .fyswap i => some (succFyswap i)
  | .itemsel r => some (succItemsel r)
  | .lookup r => some (succLookup c (wpls r.toNat) r)
  | .cacheop r i => some (succCacheop c (wpls r.toNat) r i)
  | .mathop r i => some (succMathop c (wpls r.toNat) r i)
  | .dagplan r i => some (succDagplan (wpls r.toNat) r i)
  | .dagmerge r i => some (succDagmerge (wpls r.toNat) r i)
  | .lanehash l => some (succLanehash c l)
  | .digfold l => some (succDigfold c l)
  | .serial | .halt => some ⟨0x10#8, 0#8, 0#16⟩
  | _ => none

/-- The machine goes there: LOOKUP by the answer it takes, the operations after it by `WPL` (R182). -/
theorem exec_pc_of_successor {wpls : Nat → Nat} {i : Instr} {p : Pc} {s t : State}
    (hp : Instr.successor s.cfg wpls i = some p) (hs : Instr.meetsShare wpls i s) (h : exec i s = .next t) : t.pc = p := by
  cases i
  case lookup r =>
    obtain ⟨words, hresp, hlen, hshare⟩ := hs
    simp only [exec, execLookup, hresp, if_pos hlen] at h
    cases hp; cases h
    rw [State.goto_pc, hshare]
  case cacheop | dagmerge =>
    have hwpl : s.core.wpl = _ := hs
    simp only [exec, execCacheop, execDagmerge] at h
    split at h <;> cases h
    cases hp
    rw [State.goto_pc, hwpl]
  case mathop | dagplan =>
    have hwpl : s.core.wpl = _ := hs
    cases hp; cases h
    rw [State.goto_pc, hwpl]
  all_goals cases hp <;> cases h <;> rfl

/-- The successor function leads through the written list, from its first word at position `p` to position `q` after it. -/
inductive WrittenPath (c : Cfg) (wpls : Nat → Nat) : Pc → List Instr → Pc → Prop
  | nil (p : Pc) : WrittenPath c wpls p [] p
  | cons {p p' q : Pc} {i : Instr} {is : List Instr} :
      p.word = encode i → Instr.successor c wpls i = some p' → WrittenPath c wpls p' is q → WrittenPath c wpls p (i :: is) q

section
variable {c : Cfg} {wpls : Nat → Nat}

theorem WrittenPath.append {p q q' : Pc} {is js : List Instr} (h : WrittenPath c wpls p is q) (h' : WrittenPath c wpls q js q') :
    WrittenPath c wpls p (is ++ js) q' := by
  induction h with
  | nil => exact h'
  | cons hi hp _ ih => exact .cons hi hp (ih h')

/-- A counted loop: iteration `k` begins at position `at_ k`. -/
theorem WrittenPath.flatMap_range (at_ : Nat → Pc) {body : Nat → List Instr} {n : Nat}
    (h : ∀ k < n, WrittenPath c wpls (at_ k) (body k) (at_ (k + 1))) :
    WrittenPath c wpls (at_ 0) ((List.range n).flatMap body) (at_ n) := by
  induction n with
  | zero => exact .nil _
  | succ n ih =>
    rw [List.range_succ, List.flatMap_append, List.flatMap_singleton]
    exact (ih fun k hk => h k (by omega)).append (h n (by omega))

/-- A counted loop of one micro-operation. -/
theorem WrittenPath.map_range (at_ : Nat → Pc) {op : Nat → Instr} {n : Nat}
    (h : ∀ k < n, (at_ k).word = encode (op k) ∧ Instr.successor c wpls (op k) = some (at_ (k + 1))) :
    WrittenPath c wpls (at_ 0) ((List.range n).map op) (at_ n) := by
  rw [List.map_eq_flatMap]
  exact WrittenPath.flatMap_range at_ fun k hk => .cons (h k hk).1 (h k hk).2 (.nil _)

/-- Of two neighbours in such a list, the first leaves `PC` at the word of the second. -/
theorem WrittenPath.isChain {p q : Pc} {is : List Instr} (h : WrittenPath c wpls p is q) :
    is.IsChain fun i j =>
      ∀ s t : State, s.cfg = c → Instr.meetsShare wpls i s → exec i s = .next t → t.pcreg = encode j := by
  induction h with
  | nil => exact .nil
  | cons _ hp hrest ih =>
    cases hrest with
    | nil => exact .singleton _
    | cons hj _ _ =>
      refine .cons_cons (fun s t hc hs ht => ?_) ih
      subst hc
      rw [← hj, ← exec_pc_of_successor hp hs ht, State.pcreg_eq]

end

/-! ### The loops over the lanes -/

/-- Where iteration `k` of a loop of operation `op` over the lanes begins; after the last lane, the position after the loop. -/
def laneLoopAt (c : Cfg) (op : BitVec 8) (exit : Pc) (k : Nat) : Pc :=
  if k < c.numLanes then ⟨op, 0#8, BitVec.ofNat 16 k⟩ else exit

theorem laneLoopAt_of_lt {c : Cfg} {k : Nat} (hk : k < c.numLanes) (op : BitVec 8) (exit : Pc) :
    laneLoopAt c op exit k = ⟨op, 0#8, BitVec.ofNat 16 k⟩ := if_pos hk

theorem laneLoopAt_numLanes (c : Cfg) (op : BitVec 8) (exit : Pc) : laneLoopAt c op exit c.numLanes = exit :=
  if_neg (Nat.lt_irrefl _)

section
variable {c : Cfg} (hc : c.wf = true)
include hc

theorem laneLoopAt_zero (op : BitVec 8) (exit : Pc) : laneLoopAt c op exit 0 = ⟨op, 0#8, 0#16⟩ :=
  laneLoopAt_of_lt ((Cfg.wf_iff c).1 hc).1 op exit

/-- The next lane, where there is one, else the position after the loop: the form of the lane successors of R211. -/
theorem laneLoopAt_succ {k : Nat} (hk : k < c.numLanes) (op : BitVec 8) (exit : Pc) :
    (if (BitVec.ofNat 16 k).toNat + 1 < c.numLanes then ⟨op, 0#8, BitVec.ofNat 16 k + 1#16⟩ else exit) =
      laneLoopAt c op exit (k + 1) := by
  obtain ⟨-, hlanes, -⟩ := (Cfg.wf_iff c).1 hc
  rw [idx_toNat (show k ≤ 65535 by omega), laneLoopAt, BitVec.ofNat_add]

/-- INITMIX ends at EPOCH. -/
theorem path_initmix (wpls : Nat → Nat) :
    WrittenPath c wpls ⟨0x01#8, 0#8, 0#16⟩ (traceInitmix c) ⟨0x04#8, 0#8, 0#16⟩ := by
  have hloop := WrittenPath.flatMap_range (c := c) (wpls := wpls) (laneLoopAt c 0x02#8 ⟨0x04#8, 0#8, 0#16⟩) (n := c.numLanes)
    (body := fun l => [.laneseed (BitVec.ofNat 16 l), .lanefill (BitVec.ofNat 16 l)]) fun k hk => by
      rw [laneLoopAt_of_lt hk, ← laneLoopAt_succ hc hk]
      exact .cons rfl rfl (.cons rfl rfl (.nil _))
  rw [laneLoopAt_zero hc, laneLoopAt_numLanes] at hloop
  exact .cons rfl rfl hloop

/-- REDUCE ends at HALT. -/
theorem path_reduce (wpls : Nat → Nat) :
    WrittenPath c wpls ⟨0x0D#8, 0#8, 0#16⟩ (traceReduce c) ⟨0x10#8, 0#8, 0#16⟩ := by
  have hhash := WrittenPath.map_range (c := c) (wpls := wpls) (laneLoopAt c 0x0D#8 ⟨0x0E#8, 0#8, 0#16⟩) (n := c.numLanes)
    (op := fun l => .lanehash (BitVec.ofNat 16 l)) fun k hk => by
      rw [laneLoopAt_of_lt hk, ← laneLoopAt_succ hc hk]
      exact ⟨rfl, rfl⟩
  have hfold := WrittenPath.map_range (c := c) (wpls := wpls) (laneLoopAt c 0x0E#8 ⟨0x0F#8, 0#8, 0#16⟩) (n := c.numLanes)
    (op := fun l => .digfold (BitVec.ofNat 16 l)) fun k hk => by
      rw [laneLoopAt_of_lt hk, ← laneLoopAt_succ hc hk]
      exact ⟨rfl, rfl⟩
  rw [laneLoopAt_zero hc, laneLoopAt_numLanes] at hhash hfold
  exact (hhash.append hfold).append (.cons rfl rfl (.nil _))

/-! ### The Fisher-Yates loop -/

/-- Where iteration `k` of the Fisher-Yates loop begins: its bound is `numRegs - k` (R152). -/
def fyswapLoopAt (c : Cfg) (k : Nat) : Pc :=
  if k < c.numRegs - 1 then ⟨0x06#8, 0#8, BitVec.ofNat 16 (c.numRegs - k)⟩ else ⟨0x07#8, 0#8, 0#16⟩

theorem fyswapLoopAt_succ {k : Nat} (hk : k < c.numRegs - 1) :
    succFyswap (BitVec.ofNat 16 (c.numRegs - k)) = fyswapLoopAt c (k + 1) := by
  obtain ⟨-, -, -, hregs, -⟩ := (Cfg.wf_iff c).1 hc
  have hidx : BitVec.ofNat 16 (c.numRegs - k) - 1#16 = BitVec.ofNat 16 (c.numRegs - (k + 1)) := by bv_omega
  rw [succFyswap, fyswapLoopAt, idx_toNat (show c.numRegs - k ≤ 65535 by omega), hidx]
  exact if_congr (by omega) rfl rfl

/-- SCHEDINIT ends at round 0. -/
theorem path_schedinit (wpls : Nat → Nat) :
    WrittenPath c wpls ⟨0x04#8, 0#8, 0#16⟩ (traceSchedinit c) ⟨0x07#8, 0#8, 0#16⟩ := by
  obtain ⟨-, -, htwo, -⟩ := (Cfg.wf_iff c).1 hc
  have hloop := WrittenPath.map_range (c := c) (wpls := wpls) (fyswapLoopAt c) (n := c.numRegs - 1)
    (op := fun n => .fyswap (BitVec.ofNat 16 (c.numRegs - n))) fun k hk => by
      rw [← fyswapLoopAt_succ hc hk, fyswapLoopAt, if_pos hk]
      exact ⟨rfl, rfl⟩
  have hstart : fyswapLoopAt c 0 = succSchseed c := if_pos (by omega)
  have hend : fyswapLoopAt c (c.numRegs - 1) = ⟨0x07#8, 0#8, 0#16⟩ := if_neg (Nat.lt_irrefl _)
  rw [hstart, hend] at hloop
  exact .cons rfl rfl (.cons rfl rfl hloop)

/-! ### A round -/

section
variable {wpls : Nat → Nat} {r : BitVec 8}

omit hc in
theorem successor_cacheop (i : BitVec 16) : Instr.successor c wpls (.cacheop r i) =
    some (if i.toNat < c.numMathOperations then ⟨0x0A#8, r, i⟩ else seqBody c (wpls r.toNat) r (i.toNat + 1)) := rfl

omit hc in
theorem successor_mathop (i : BitVec 16) :
    Instr.successor c wpls (.mathop r i) = some (seqBody c (wpls r.toNat) r (i.toNat + 1)) := rfl

omit hc in
theorem successor_dagplan (i : BitVec 16) :
    Instr.successor c wpls (.dagplan r i) = some (seqPlan (wpls r.toNat) r (i.toNat + 1)) := rfl

omit hc in
theorem successor_dagmerge (i : BitVec 16) :
    Instr.successor c wpls (.dagmerge r i) = some (seqDmerge (wpls r.toNat) r (i.toNat + 1)) := rfl

/-- Iteration `i` of step 2 of a round: the cache operation, the math operation, or both (R183). -/
theorem path_bodyIteration {i : Nat} (hi : i < max c.numCacheAccesses c.numMathOperations) :
    WrittenPath c wpls (seqBody c (wpls r.toNat) r i)
      ((if i < c.numCacheAccesses then [.cacheop r (BitVec.ofNat 16 i)] else []) ++
        (if i < c.numMathOperations then [.mathop r (BitVec.ofNat 16 i)] else []))
      (seqBody c (wpls r.toNat) r (i + 1)) := by
  obtain ⟨-, -, -, -, hcache, hmath, -⟩ := (Cfg.wf_iff c).1 hc
  have hidx : (BitVec.ofNat 16 i).toNat = i := idx_toNat (by omega)
  have hmathop : Instr.successor c wpls (.mathop r (BitVec.ofNat 16 i)) = some (seqBody c (wpls r.toNat) r (i + 1)) := by
    rw [successor_mathop, hidx]
  have hcacheop : Instr.successor c wpls (.cacheop r (BitVec.ofNat 16 i)) =
      some (if i < c.numMathOperations then ⟨0x0A#8, r, BitVec.ofNat 16 i⟩ else seqBody c (wpls r.toNat) r (i + 1)) := by
    rw [successor_cacheop, hidx]
  rw [seqBody, if_pos hi]
  by_cases hca : i < c.numCacheAccesses
  · rw [if_pos hca, if_pos hca]
    by_cases hma : i < c.numMathOperations
    · rw [if_pos hma] at hcacheop ⊢
      exact .cons rfl hcacheop (.cons rfl hmathop (.nil _))
    · rw [if_neg hma] at hcacheop ⊢
      exact .cons rfl hcacheop (.nil _)
  · rw [if_neg hca, if_neg hca, if_pos (show i < c.numMathOperations by omega)]
    exact .cons rfl hmathop (.nil _)

/-- The planning of the dataset merge: one DAGPLAN for every word of the share. -/
theorem path_plan (hw : wpls r.toNat ≤ c.itemMax / c.numLanes) :
    WrittenPath c wpls (seqPlan (wpls r.toNat) r 0) ((List.range (wpls r.toNat)).map fun i => .dagplan r (BitVec.ofNat 16 i))
      (seqDmerge (wpls r.toNat) r 0) := by
  obtain ⟨-, -, -, -, -, -, -, -, -, -, -, -, hshare⟩ := (Cfg.wf_iff c).1 hc
  have hloop := WrittenPath.map_range (c := c) (wpls := wpls) (seqPlan (wpls r.toNat) r) (n := wpls r.toNat)
    (op := fun i => .dagplan r (BitVec.ofNat 16 i)) fun k hk => by
      rw [successor_dagplan, idx_toNat (show k ≤ 65535 by omega), seqPlan, if_pos hk]
      exact ⟨rfl, rfl⟩
  have hend : seqPlan (wpls r.toNat) r (wpls r.toNat) = seqDmerge (wpls r.toNat) r 0 := if_neg (Nat.lt_irrefl _)
  rwa [hend] at hloop

/-- The dataset merge itself: one DAGMERGE for every word of the share. -/
theorem path_dmerge (hw : wpls r.toNat ≤ c.itemMax / c.numLanes) :
    WrittenPath c wpls (seqDmerge (wpls r.toNat) r 0) ((List.range (wpls r.toNat)).map fun i => .dagmerge r (BitVec.ofNat 16 i))
      (seqEndround r) := by
  obtain ⟨-, -, -, -, -, -, -, -, -, -, -, -, hshare⟩ := (Cfg.wf_iff c).1 hc
  have hloop := WrittenPath.map_range (c := c) (wpls := wpls) (seqDmerge (wpls r.toNat) r) (n := wpls r.toNat)
    (op := fun i => .dagmerge r (BitVec.ofNat 16 i)) fun k hk => by
      rw [successor_dagmerge, idx_toNat (show k ≤ 65535 by omega), seqDmerge, if_pos hk]
      exact ⟨rfl, rfl⟩
  have hend : seqDmerge (wpls r.toNat) r (wpls r.toNat) = seqEndround r := if_neg (Nat.lt_irrefl _)
  rwa [hend] at hloop

end

/-- One round, from ITEMSEL to where `endround` leads. -/
theorem path_round {wpls : Nat → Nat} (hw : ∀ r, wpls r ≤ c.itemMax / c.numLanes) {r : Nat} (hr : r < 64) :
    WrittenPath c wpls ⟨0x07#8, BitVec.ofNat 8 r, 0#16⟩ (traceRound c (wpls r) r) (seqEndround (BitVec.ofNat 8 r)) := by
  have hround : (BitVec.ofNat 8 r).toNat = r := by
    rw [BitVec.toNat_ofNat, Nat.mod_eq_of_lt (by omega)]
  have hbody := WrittenPath.flatMap_range (c := c) (wpls := wpls) (seqBody c (wpls (BitVec.ofNat 8 r).toNat) (BitVec.ofNat 8 r))
    fun i hi => path_bodyIteration hc hi
  have hbodyEnd : seqBody c (wpls (BitVec.ofNat 8 r).toNat) (BitVec.ofNat 8 r) (max c.numCacheAccesses c.numMathOperations)
      = seqPlan (wpls (BitVec.ofNat 8 r).toNat) (BitVec.ofNat 8 r) 0 := if_neg (Nat.lt_irrefl _)
  rw [hbodyEnd] at hbody
  have hrest := (hbody.append (path_plan hc (hw _))).append (path_dmerge hc (hw _))
  rw [hround] at hrest
  exact .cons rfl rfl (.cons rfl (congrArg some (by rw [succLookup, hround])) hrest)

/-- Where round `k` begins; after the last one, the reduction. -/
def roundLoopAt (k : Nat) : Pc :=
  if k < 64 then ⟨0x07#8, BitVec.ofNat 8 k, 0#16⟩ else ⟨0x0D#8, 0#8, 0#16⟩

omit hc in
theorem seqEndround_eq_roundLoopAt {k : Nat} (hk : k < 64) : seqEndround (BitVec.ofNat 8 k) = roundLoopAt (k + 1) := by
  rw [seqEndround, roundLoopAt, BitVec.toNat_ofNat, Nat.mod_eq_of_lt (by omega), BitVec.ofNat_add]
  exact if_congr (by omega) rfl rfl

/-- HASHMIX from its first micro-operation to HALT. -/
theorem path_hashmix {wpls : Nat → Nat} (hw : ∀ r, wpls r ≤ c.itemMax / c.numLanes) :
    WrittenPath c wpls ⟨0x01#8, 0#8, 0#16⟩ (traceHashmix c wpls) ⟨0x10#8, 0#8, 0#16⟩ := by
  have hrounds : WrittenPath c wpls ⟨0x07#8, 0#8, 0#16⟩ ((List.range 64).flatMap fun r => traceRound c (wpls r) r)
      ⟨0x0D#8, 0#8, 0#16⟩ :=
    WrittenPath.flatMap_range roundLoopAt fun k hk => by
      rw [← seqEndround_eq_roundLoopAt hk, roundLoopAt, if_pos hk]
      exact path_round hc hw hk
  exact ((((path_initmix hc wpls).append (path_schedinit hc wpls)).append hrounds).append (path_reduce hc wpls)).append
    (.cons rfl rfl (.nil _))

end

/-- Settles O12: the successor function leads through HASHMIX from its first micro-operation to HALT. -/
theorem writtenRunFollowsSuccessor : Obligations.WrittenRunFollowsSuccessor :=
  fun _ _ hc hw => (path_hashmix hc hw).isChain

end Sys2Proof.Machine
end

section
/-! The FNV-1a step (R121, R124): what a call of FNV1A computes, in numbers, and why the step loses nothing of either argument:
an odd word is a unit of the ring of 32-bit words, and an exclusive or with a fixed word is its own inverse. -/

namespace Sys2Proof.Machine

open Sys2Proof

/-- An odd word is coprime to `2^w`, which is zero in the ring of words. -/
theorem isUnit_of_odd {w : Nat} {p : BitVec w} (hp : p.toNat % 2 = 1) : IsUnit p := by
  have hcop : Nat.Coprime p.toNat (2 ^ w) := (Nat.odd_iff.2 hp).coprime_two_right.pow_right w
  have hring : IsCoprime ((p.toNat : Nat) : BitVec w) ((2 ^ w : Nat) : BitVec w) := hcop.cast
  have hword : ((p.toNat : Nat) : BitVec w) = p := by simp
  have hzero : ((2 ^ w : Nat) : BitVec w) = 0 :=
    BitVec.eq_of_toNat_eq ((BitVec.toNat_ofNat _ _).trans (Nat.mod_self _))
  rwa [hword, hzero, isCoprime_zero_right] at hring

theorem xor_involutive {w : Nat} (h : BitVec w) : Function.Involutive (h ^^^ ·) := fun d => by
  simp only [← BitVec.xor_assoc, BitVec.xor_self, BitVec.zero_xor]

theorem fnv1a_comm (c : Cfg) (h d : Word) : fnv1a c h d = fnv1a c d h := by
  rw [fnv1a, fnv1a, BitVec.xor_comm]

theorem fnv1a_bijective_data {c : Cfg} (hp : c.fnvPrime.toNat % 2 = 1) (h : Word) :
    Function.Bijective fun d => fnv1a c h d :=
  (IsUnit.isUnit_iff_mulRight_bijective.1 (isUnit_of_odd hp)).comp (xor_involutive h).bijective

/-- Settles O15: the exclusive or and the multiplication by an odd prime are both bijections, and the step is symmetric in its
two arguments. -/
theorem fnv1aIsBijective : Obligations.Fnv1aIsBijective := by
  intro c hp
  refine ⟨fnv1a_bijective_data hp, fun d => ?_⟩
  simp only [fnv1a_comm c _ d]
  exact fnv1a_bijective_data hp d

/-- The step in numbers: the product is that of the natural numbers, modulo `2^32`. -/
theorem fnv1a_eq_ofNat (c : Cfg) (h d : Word) :
    fnv1a c h d = BitVec.ofNat 32 ((h.toNat ^^^ d.toNat) * c.fnvPrime.toNat) := by
  rw [fnv1a, BitVec.ofNat_mul, ← BitVec.toNat_xor, BitVec.ofNat_toNat, BitVec.ofNat_toNat, BitVec.setWidth_eq,
    BitVec.setWidth_eq]

/-- R121 on the operands of the port (log entry 12). -/
theorem exec_fnv1a (s : State) : exec .fnv1a s = .next (s.withResult (fnv1a s.cfg s.port.a s.port.b)) := rfl

/-- Settles O14: `withResult` writes one field of the port, with the value `fnv1a_eq_ofNat` says in numbers. -/
theorem fnv1aXorsThenMultiplies : Obligations.Fnv1aXorsThenMultiplies :=
  ⟨by decide, fun s => by rw [exec_fnv1a, fnv1a_eq_ofNat, State.withResult]⟩

end Sys2Proof.Machine
end

section
/-! KISS99 (R131 to R138): what KSEED and KNEXT do to the generator that the port names, each lane and the output in numbers,
and which words a draw cannot lead away from zero. -/

namespace Sys2Proof.Machine

open Sys2Proof

/-! ### The lanes in numbers -/

/-- R132: the mask keeps the low half of the word, the shift its high half. -/
theorem mwc_toNat (v m : Word) :
    (mwc v m).toNat = (m.toNat * (v.toNat % 65536) + v.toNat / 65536) % 2 ^ 32 := by
  have hlow : (v &&& 0x0000FFFF#32).toNat = v.toNat % 65536 := Nat.and_two_pow_sub_one_eq_mod v.toNat 16
  have hhigh : (v >>> 16).toNat = v.toNat / 65536 := by
    rw [BitVec.toNat_ushiftRight, Nat.shiftRight_eq_div_pow]
  rw [mwc, BitVec.toNat_add, BitVec.toNat_mul, hlow, hhigh, Nat.mod_add_mod]

/-- A multiplier of 16 bits leaves room for the carry: at most `65535 * 65535 + 65535`, which is below `2^32`. -/
theorem mwc_toNat_of_lt (v : Word) {m : Word} (hm : m.toNat < 65536) :
    (mwc v m).toNat = m.toNat * (v.toNat % 65536) + v.toNat / 65536 := by
  have hv : v.toNat < 2 ^ 32 := v.isLt
  have hprod : m.toNat * (v.toNat % 65536) ≤ 65535 * 65535 := Nat.mul_le_mul (by omega) (by omega)
  rw [mwc_toNat, Nat.mod_eq_of_lt (by omega)]

/-- R133 -/
theorem congruential_toNat (c : Cfg) (jcong : Word) :
    (congruential c jcong).toNat = (c.kissA.toNat * jcong.toNat + c.kissC.toNat) % 2 ^ 32 := by
  rw [congruential, BitVec.toNat_add, BitVec.toNat_mul, Nat.mod_add_mod]

/-- R134: a shift to the left is a product modulo `2^32`, one to the right a quotient. -/
theorem xorshift_toNat (jsr : Word) :
    let t1 := jsr.toNat ^^^ (jsr.toNat * 2 ^ 17 % 2 ^ 32)
    let t2 := t1 ^^^ (t1 / 2 ^ 13)
    (xorshift jsr).toNat = t2 ^^^ (t2 * 2 ^ 5 % 2 ^ 32) := by
  simp only [xorshift, BitVec.toNat_xor, BitVec.toNat_shiftLeft, BitVec.toNat_ushiftRight, Nat.shiftLeft_eq,
    Nat.shiftRight_eq_div_pow]

/-- R135 -/
theorem kissOut_toNat (g : Kiss) :
    (kissOut g).toNat =
      ((((g.z.toNat * 2 ^ 16 + g.w.toNat) % 2 ^ 32) ^^^ g.jcong.toNat) + g.jsr.toNat) % 2 ^ 32 := by
  rw [kissOut, BitVec.toNat_add, BitVec.toNat_xor, BitVec.toNat_add, BitVec.toNat_shiftLeft, Nat.shiftLeft_eq,
    Nat.mod_add_mod]

/-- Settles O18: one lemma for each lane and one for the output; both multipliers of R132 have 16 bits. -/
theorem kissLanesInNumbers : Obligations.KissLanesInNumbers :=
  ⟨fun c g => ⟨mwc_toNat g.z c.kissMz, mwc_toNat g.w c.kissMw, congruential_toNat c g.jcong, xorshift_toNat g.jsr,
      kissNext_snd c g, kissOut_toNat (kissAdvance c g)⟩,
    fun v => ⟨mwc_toNat_of_lt v (by decide), mwc_toNat_of_lt v (by decide)⟩⟩

/-! ### Words that stay zero -/

@[simp] theorem mwc_zero (m : Word) : mwc 0#32 m = 0#32 := by simp [mwc]

@[simp] theorem xorshift_zero : xorshift 0#32 = 0#32 := by decide

/-- Settles O19: each of the three lanes reads its own word alone and leaves zero at zero; so does every number of draws. -/
theorem degenerateWordsStayZero : Obligations.DegenerateWordsStayZero := by
  intro c g n
  have hjsr (g : Kiss) (h : g.jsr = 0#32) : (kissAdvance c g).jsr = 0#32 := by rw [kissAdvance, h, xorshift_zero]
  have hz (g : Kiss) (h : g.z = 0#32) : (kissAdvance c g).z = 0#32 := by rw [kissAdvance, h, mwc_zero]
  have hw (g : Kiss) (h : g.w = 0#32) : (kissAdvance c g).w = 0#32 := by rw [kissAdvance, h, mwc_zero]
  exact ⟨fun h => Function.Iterate.rec (fun g : Kiss => g.jsr = 0#32) h hjsr n,
    fun h => Function.Iterate.rec (fun g : Kiss => g.z = 0#32) h hz n,
    fun h => Function.Iterate.rec (fun g : Kiss => g.w = 0#32) h hw n⟩

/-! ### The two calls -/

/-- R131 on the operands of the port (log entry 12). -/
theorem exec_kseed (s : State) :
    exec .kseed s = .next (s.withGen s.port.gen ⟨s.port.a, s.port.b, s.port.c, s.port.d⟩) := rfl

/-- R136: the generator is advanced, and the word returned is the output of the advanced words. -/
theorem exec_knext (s : State) :
    exec .knext s = .next ((s.withGen s.port.gen (kissAdvance s.cfg (s.gen s.port.gen))).withResult
      (kissOut (kissAdvance s.cfg (s.gen s.port.gen)))) := rfl

/-- Settles O16: the write to either generator is a write to one field of the core state. -/
theorem kseedStoresSeedWords : Obligations.KseedStoresSeedWords := by
  refine ⟨by decide, fun s => ⟨fun hgen => ?gs, fun hgen => ?gl⟩⟩
  case gs => rw [exec_kseed, hgen, State.withGen_gs, State.withCore]
  case gl => rw [exec_kseed, hgen, State.withGen_gl, State.withCore]

/-- Settles O17: the port is read and the generator written by the choice of the port; the result is the only other write. -/
theorem knextDrawsFromItsGenerator : Obligations.KnextDrawsFromItsGenerator := by
  refine ⟨by decide, fun s => ⟨fun hgen => ?gs, fun hgen => ?gl⟩⟩
  case gs => rw [exec_knext, hgen, State.gen_gs, State.withGen_gs, State.withCore, State.withResult]
  case gl => rw [exec_knext, hgen, State.gen_gl, State.withGen_gl, State.withCore, State.withResult]

end Sys2Proof.Machine
end

section
/-! The register schedule (R150 to R161): what EPOCH, SCHSEED and FYSWAP write to the core state, the whole construction as
one run of the block, and the two cursors. -/

namespace Sys2Proof.Machine

open Sys2Proof

/-! ### A micro-operation as a step of a run -/

/-- A run that goes on after its first `m` steps. -/
theorem run_add {M : Host.Core} {m n : Nat} {s t : M.State} {o : Host.Outcome M.State M.Fault M.Refusal}
    (h : M.run m s = .next t) (h' : M.run n t = o) : M.run (m + n) s = o := by
  induction m generalizing s with
  | zero =>
    obtain rfl : s = t := Host.Outcome.next.inj h
    rwa [Nat.zero_add]
  | succ m ih =>
    rw [Nat.succ_add, Host.Core.run]
    rw [Host.Core.run] at h
    cases hstep : M.step s with
    | next u => exact ih (by rwa [hstep] at h)
    | fault r | refused r => rw [hstep] at h; cases h

theorem run_one {M : Host.Core} {s t : M.State} (h : M.step s = .next t) : M.run 1 s = .next t := by
  rw [Host.Core.run, h]
  rfl

/-- With nothing pending and no call in hand the block runs the micro-operation whose word stands in `PC` (R5, R91). -/
theorem step_of_word {s : State} {i : Instr} (hw : s.cfg.wf = true) (he : s.env = []) (hc : s.call = none)
    (hpc : s.pc.word = encode i) (hf : i.format = .S) (hi : i.wf = true) (hr : i.inRange s.cfg = true) :
    step s = exec i s := by
  have hd : decode .S s.pcreg = .ok i := by
    rw [show s.pcreg = encode i from hpc, ← hf]
    exact decodeInvertsEncode i hi
  exact (stepRunsDecodedInstruction s i hw).1 he hc hd hr

/-! ### EPOCH -/

/-- A quotient of a 64-bit word is one, whatever the divisor is. -/
theorem epochOf_toNat (c : Cfg) (height : U64) : (epochOf c height).toNat = height.toNat / c.periodLength := by
  rw [epochOf, BitVec.toNat_ofNat, Nat.mod_eq_of_lt ((Nat.div_le_self _ _).trans_lt height.isLt)]

theorem exec_epoch (s : State) :
    exec .epoch s = .next ((s.withCore { s.core with epoch := epochOf s.cfg s.height }).goto succEpoch) := rfl

/-- Settles O24: the quotient is that of `epochOf_toNat`. -/
theorem epochDividesHeight : Obligations.EpochDividesHeight :=
  ⟨by decide, fun s => ⟨epochOf s.cfg s.height, epochOf_toNat s.cfg s.height, exec_epoch s⟩⟩

/-! ### SCHSEED -/

theorem lo32_eq_ofNat (x : U64) : lo32 x = BitVec.ofNat 32 (x.toNat % 2 ^ 32) := by
  apply BitVec.eq_of_toNat_eq
  simp [lo32]

theorem hi32_eq_ofNat (x : U64) : hi32 x = BitVec.ofNat 32 (x.toNat / 2 ^ 32) := by
  apply BitVec.eq_of_toNat_eq
  simp [hi32, Nat.shiftRight_eq_div_pow]

/-- The core state after SCHSEED (R151). -/
def Core.seedSchedule (c : Cfg) (k : Core) : Core :=
  { k with
    gs := scheduleSeed c k.epoch
    dstSeq := List.range c.numRegs
    srcSeq := List.range c.numRegs
    dstCnt := 0#32
    srcCnt := 0#32 }

theorem exec_schseed (s : State) :
    exec .schseed s = .next ((s.withCore (s.core.seedSchedule s.cfg)).goto (succSchseed s.cfg)) := rfl

/-- Settles O25: the halves of the epoch that `scheduleSeed` folds, in numbers. -/
theorem schseedConstructsSchedule : Obligations.SchseedConstructsSchedule := by
  refine ⟨by decide, fun s => ?_⟩
  simp only [exec_schseed, Core.seedSchedule, scheduleSeed, kissSeed, lo32_eq_ofNat, hi32_eq_ofNat]
  rfl

/-- What SCHSEED constructs is a function of the epoch alone (R154). -/
theorem Core.seedSchedule_congr {k k' : Core} (c : Cfg) (h : k.epoch = k'.epoch) :
    (k.seedSchedule c).schedule = (k'.seedSchedule c).schedule := by
  simp only [Core.schedule, Core.seedSchedule, h]

/-! ### FYSWAP -/

/-- The core state after FYSWAP `i` (R152): the first draw picks in the destination file, the second in the source file. -/
def Core.exchange (c : Cfg) (i : Nat) (k : Core) : Core :=
  { k with
    gs := kissAdvance c (kissAdvance c k.gs)
    dstSeq := swapEntries k.dstSeq (i - 1) ((kissOut (kissAdvance c k.gs)).toNat % i)
    srcSeq := swapEntries k.srcSeq (i - 1) ((kissOut (kissAdvance c (kissAdvance c k.gs))).toNat % i) }

theorem exec_fyswap (i : BitVec 16) (s : State) :
    exec (.fyswap i) s = .next ((s.withCore (s.core.exchange s.cfg i.toNat)).goto (succFyswap i)) := rfl

/-- The successor of FYSWAP with its bound in numbers (R152). -/
theorem succFyswap_eq_ofNat (i : BitVec 16) :
    succFyswap i = if 2 < i.toNat then ⟨0x06#8, 0#8, BitVec.ofNat 16 (i.toNat - 1)⟩ else ⟨0x07#8, 0#8, 0#16⟩ := by
  unfold succFyswap
  split
  · have hidx : i - 1#16 = BitVec.ofNat 16 (i.toNat - 1) := by bv_omega
    rw [hidx]
  · rfl

/-- Settles O26: both draws are below `i`, so both exchanges are inside their files, where `swapEntries_getD` says them entry
by entry. -/
theorem fyswapExchangesTwoEntries : Obligations.FyswapExchangesTwoEntries := by
  intro s i
  refine ⟨by simp [encode, fieldsWord_eq_or], fun h2 hi hdst hsrc => ?_⟩
  have hlast : i.toNat - 1 < s.cfg.numRegs := by omega
  have hdraw (v : Nat) : v % i.toNat < s.cfg.numRegs := (Nat.mod_lt v (by omega)).trans_le hi
  refine ⟨_, _, by rw [exec_fyswap, succFyswap_eq_ofNat]; rfl, ?_, ?_, fun n => ?_, fun n => ?_⟩
  · exact (swapEntries_length _ _ _).trans hdst
  · exact (swapEntries_length _ _ _).trans hsrc
  · exact swapEntries_getD _ _ _ n (hdst ▸ hlast) (hdst ▸ hdraw _)
  · exact swapEntries_getD _ _ _ n (hsrc ▸ hlast) (hsrc ▸ hdraw _)

/-- What FYSWAP leaves in the schedule is a function of the schedule it finds (R154). -/
theorem Core.exchange_congr {k k' : Core} (c : Cfg) (i : Nat) (h : k.schedule = k'.schedule) :
    (k.exchange c i).schedule = (k'.exchange c i).schedule := by
  simp only [Core.schedule, Prod.mk.injEq] at h
  obtain ⟨hgs, hdst, hsrc, hdcnt, hscnt⟩ := h
  simp only [Core.schedule, Core.exchange, hgs, hdst, hsrc, hdcnt, hscnt]

/-! ### The construction as a run (R154) -/

/-- The core state after the first `n` iterations of the Fisher-Yates loop, whose bound falls from `numRegs` (R152). -/
def Core.exchanges (c : Cfg) (k : Core) : Nat → Core
  | 0 => k
  | n + 1 => (k.exchanges c n).exchange c (c.numRegs - n)

theorem Core.exchanges_congr {k k' : Core} (c : Cfg) (h : k.schedule = k'.schedule) (n : Nat) :
    (k.exchanges c n).schedule = (k'.exchanges c n).schedule := by
  induction n with
  | zero => exact h
  | succ n ih => exact Core.exchange_congr c _ ih

section
variable {s : State} (hw : s.cfg.wf = true) (he : s.env = []) (hc : s.call = none)
include hw he hc

/-- One iteration of the Fisher-Yates loop is one step. -/
theorem step_fyswapLoop {n : Nat} (hn : n < s.cfg.numRegs - 1) (hpc : s.pc = fyswapLoopAt s.cfg n) :
    step s = .next ((s.withCore (s.core.exchange s.cfg (s.cfg.numRegs - n))).goto (fyswapLoopAt s.cfg (n + 1))) := by
  obtain ⟨-, -, -, hregs, -⟩ := (Cfg.wf_iff s.cfg).1 hw
  have hidx : (BitVec.ofNat 16 (s.cfg.numRegs - n)).toNat = s.cfg.numRegs - n := idx_toNat (by omega)
  have hword : s.pc.word = encode (.fyswap (BitVec.ofNat 16 (s.cfg.numRegs - n))) := by
    rw [hpc, fyswapLoopAt, if_pos hn]; rfl
  have hrange : Instr.inRange s.cfg (.fyswap (BitVec.ofNat 16 (s.cfg.numRegs - n))) = true := by
    simp only [Instr.inRange, hidx, Bool.and_eq_true, decide_eq_true_eq]; omega
  rw [step_of_word hw he hc hword rfl rfl hrange, exec_fyswap, hidx, fyswapLoopAt_succ hw hn]

/-- The loop from its beginning. -/
theorem run_fyswapLoop (hpc : s.pc = fyswapLoopAt s.cfg 0) {n : Nat} (hn : n ≤ s.cfg.numRegs - 1) :
    Host.Core.run Sys2Proof.core n s =
      .next ((s.withCore (s.core.exchanges s.cfg n)).goto (fyswapLoopAt s.cfg n)) := by
  induction n with
  | zero => rw [← hpc]; rfl
  | succ n ih =>
    exact run_add (ih (by omega)) (run_one
      (step_fyswapLoop (s := (s.withCore (s.core.exchanges s.cfg n)).goto (fyswapLoopAt s.cfg n)) hw he hc hn rfl))

/-- SCHSEED and the loop after it. -/
theorem run_schseed (hpc : s.pc = succEpoch) :
    Host.Core.run Sys2Proof.core (1 + (s.cfg.numRegs - 1)) s =
      .next ((s.withCore ((s.core.seedSchedule s.cfg).exchanges s.cfg (s.cfg.numRegs - 1))).goto
        (fyswapLoopAt s.cfg (s.cfg.numRegs - 1))) := by
  obtain ⟨-, -, htwo, -⟩ := (Cfg.wf_iff s.cfg).1 hw
  have hseed : step s = .next ((s.withCore (s.core.seedSchedule s.cfg)).goto (succSchseed s.cfg)) :=
    step_of_word (i := .schseed) hw he hc (by rw [hpc]; rfl) rfl rfl rfl
  have hstart : succSchseed s.cfg = fyswapLoopAt s.cfg 0 := (if_pos (by omega)).symm
  exact run_add (run_one hseed)
    (run_fyswapLoop (s := (s.withCore (s.core.seedSchedule s.cfg)).goto (succSchseed s.cfg)) hw he hc hstart le_rfl)

/-- The construction of the schedule, from EPOCH to round 0: nothing but core state and `PC` changes. -/
theorem run_schedinit (hpc : s.pc = ⟨0x04#8, 0#8, 0#16⟩) :
    Host.Core.run Sys2Proof.core (s.cfg.numRegs + 1) s =
      .next ((s.withCore ((Core.seedSchedule s.cfg { s.core with epoch := epochOf s.cfg s.height }).exchanges s.cfg
        (s.cfg.numRegs - 1))).goto ⟨0x07#8, 0#8, 0#16⟩) := by
  obtain ⟨-, -, htwo, -⟩ := (Cfg.wf_iff s.cfg).1 hw
  have hepoch : step s = .next ((s.withCore { s.core with epoch := epochOf s.cfg s.height }).goto succEpoch) :=
    step_of_word (i := .epoch) hw he hc (by rw [hpc]; rfl) rfl rfl rfl
  have hsteps : s.cfg.numRegs + 1 = 1 + (1 + (s.cfg.numRegs - 1)) := by omega
  have hend : fyswapLoopAt s.cfg (s.cfg.numRegs - 1) = ⟨0x07#8, 0#8, 0#16⟩ := if_neg (Nat.lt_irrefl _)
  rw [hsteps, ← hend]
  exact run_add (run_one hepoch)
    (run_schseed (s := (s.withCore { s.core with epoch := epochOf s.cfg s.height }).goto succEpoch) hw he hc rfl)

end

/-- Settles O28: both runs are known (`run_schedinit`); the epochs are equal, and every operation of the construction writes to
the schedule a function of the epoch or of the schedule. -/
theorem scheduleDependsOnEpochOnly : Obligations.ScheduleDependsOnEpochOnly := by
  intro s s' hw hcfg he he' hc hc' hpc hpc' hheight
  have hepoch : epochOf s.cfg s.height = epochOf s.cfg s'.height := by rw [epochOf, epochOf, hheight]
  have hrun' := run_schedinit (hcfg ▸ hw) he' hc' hpc'
  rw [hcfg] at hrun'
  exact ⟨_, _, run_schedinit hw he hc hpc, hrun', rfl, rfl,
    Core.exchanges_congr s.cfg (Core.seedSchedule_congr s.cfg hepoch) _⟩

/-! ### NSRC and NDST -/

/-- A cursor moves by one, modulo `2^32` (R160, R161). -/
theorem cursor_add_one (v : Word) : v + 1#32 = BitVec.ofNat 32 (v.toNat + 1) := by
  rw [BitVec.ofNat_add, BitVec.ofNat_toNat, BitVec.setWidth_eq]

theorem exec_nsrc (s : State) :
    exec .nsrc s =
      .next ((s.withCore (nextSrc s.cfg s.core).2).withResult (BitVec.ofNat 32 (nextSrc s.cfg s.core).1)) := rfl

theorem exec_ndst (s : State) :
    exec .ndst s =
      .next ((s.withCore (nextDst s.cfg s.core).2).withResult (BitVec.ofNat 32 (nextDst s.cfg s.core).1)) := rfl

/-- Settles O29: `nextSrc` and `nextDst` read at the cursor they leave, in numbers by `cursor_add_one`. -/
theorem cursorMovesBeforeFileIsRead : Obligations.CursorMovesBeforeFileIsRead := by
  refine ⟨by decide, by decide, fun s => ⟨?nsrc, ?ndst⟩⟩
  case nsrc => rw [exec_nsrc, nextSrc, cursor_add_one, BitVec.toNat_ofNat]; rfl
  case ndst => rw [exec_ndst, nextDst, cursor_add_one, BitVec.toNat_ofNat]; rfl

end Sys2Proof.Machine
end

section
/-! Filling the lanes (R170 to R173): what MIXSEED, LANESEED and LANEFILL write to the core state, the registers of a lane after
its draws, and the whole of INITMIX as one run of the block. -/

namespace Sys2Proof.Machine

open Sys2Proof

/-! ### MIXSEED -/

/-- The core state after MIXSEED (R170). -/
def Core.foldSeed (c : Cfg) (seed : U64) (k : Core) : Core :=
  { k with
    zb := fnv1a c c.fnvOffsetBasis (lo32 seed)
    wb := fnv1a c (fnv1a c c.fnvOffsetBasis (lo32 seed)) (hi32 seed) }

theorem exec_mixseed (s : State) :
    exec .mixseed s = .next ((s.withCore (s.core.foldSeed s.cfg s.seed)).goto succMixseed) := rfl

/-- Settles O20: the two halves that `Core.foldSeed` folds, in numbers. -/
theorem mixseedFoldsSeedHalves : Obligations.MixseedFoldsSeedHalves := by
  refine ⟨by decide, fun s => ?_⟩
  rw [exec_mixseed, Core.foldSeed, lo32_eq_ofNat, hi32_eq_ofNat]
  rfl

/-! ### LANESEED -/

/-- The core state after LANESEED `l` (R171). -/
def Core.seedLane (c : Cfg) (l : Nat) (k : Core) : Core := { k with gl := laneSeed c k.zb k.wb l }

theorem exec_laneseed (l : BitVec 16) (s : State) :
    exec (.laneseed l) s = .next ((s.withCore (s.core.seedLane s.cfg l.toNat)).goto (succLaneseed l)) := rfl

/-- The generator of a lane, where the lane number is an index field widened to a word (R91, R171). -/
theorem laneSeed_toNat (c : Cfg) (zb wb : Word) (l : BitVec 16) :
    laneSeed c zb wb l.toNat =
      ⟨zb, wb, fnv1a c wb (l.setWidth 32), fnv1a c (fnv1a c wb (l.setWidth 32)) (l.setWidth 32)⟩ := by
  rw [laneSeed, BitVec.ofNat_toNat, kissSeed]

/-- Settles O21: `laneSeed_toNat` gives the four words of the generator. -/
theorem laneseedBuildsFreshGenerator : Obligations.LaneseedBuildsFreshGenerator := by
  refine fun s l => ⟨by simp [encode, fieldsWord_eq_or], ?_⟩
  rw [exec_laneseed, Core.seedLane, laneSeed_toNat]
  rfl

/-! ### LANEFILL -/

/-- The core state after LANEFILL `l` (R172): the draws are the row of the lane. -/
def Core.drawRow (c : Cfg) (l : Nat) (k : Core) : Core :=
  { k with
    mix := k.mix.set l (kissDraws c c.numRegs k.gl).1
    gl := (kissAdvance c)^[c.numRegs] k.gl }

theorem exec_lanefill (l : BitVec 16) (s : State) :
    exec (.lanefill l) s = .next ((s.withCore (s.core.drawRow s.cfg l.toNat)).goto (succLanefill s.cfg l)) := by
  rw [Core.drawRow, ← kissDraws_snd]
  rfl

/-- The successor of LANEFILL with the next lane in numbers (R211). -/
theorem succLanefill_eq_ofNat (c : Cfg) (l : BitVec 16) :
    succLanefill c l =
      if l.toNat + 1 < c.numLanes then ⟨0x02#8, 0#8, BitVec.ofNat 16 (l.toNat + 1)⟩ else ⟨0x04#8, 0#8, 0#16⟩ := by
  rw [succLanefill, BitVec.ofNat_add, BitVec.ofNat_toNat, BitVec.setWidth_eq]

@[simp] theorem Core.drawRow_mix_length (c : Cfg) (l : Nat) (k : Core) : (k.drawRow c l).mix.length = k.mix.length :=
  List.length_set

section
variable {c : Cfg} {k : Core} {l : Nat}

theorem Core.drawRow_row (hl : l < k.mix.length) : (k.drawRow c l).mix.getD l [] = (kissDraws c c.numRegs k.gl).1 := by
  rw [Core.drawRow, getD_set, if_pos ⟨rfl, hl⟩]

theorem Core.drawRow_row_of_ne {l' : Nat} (h : l' ≠ l) : (k.drawRow c l).mix.getD l' [] = k.mix.getD l' [] := by
  rw [Core.drawRow, getD_set, if_neg fun e => h e.1]

/-- Register `j` of the lane is draw number `j + 1` (R172). -/
theorem mixReg_drawRow {j : Nat} (hl : l < k.mix.length) (hj : j < c.numRegs) :
    mixReg (k.drawRow c l).mix l j = kissOut ((kissAdvance c)^[j + 1] k.gl) := by
  rw [mixReg, Core.drawRow_row hl, kissDraws_getD c c.numRegs k.gl j hj]

theorem mixReg_drawRow_of_ne {l' : Nat} (h : l' ≠ l) (j : Nat) :
    mixReg (k.drawRow c l).mix l' j = mixReg k.mix l' j := by
  rw [mixReg, Core.drawRow_row_of_ne h, mixReg]

end

/-- Settles O22: the row of the lane is the list of the draws, every other row the one before. -/
theorem lanefillDrawsOneRow : Obligations.LanefillDrawsOneRow := by
  refine fun s l => ⟨by simp [encode, fieldsWord_eq_or], fun hl => ?_⟩
  refine ⟨(s.core.drawRow s.cfg l.toNat).mix, ?outcome, Core.drawRow_mix_length _ _ _, ?rowLength,
    fun k hk => mixReg_drawRow hl hk, fun l' hne => Core.drawRow_row_of_ne hne⟩
  case outcome => rw [exec_lanefill, succLanefill_eq_ofNat]; rfl
  case rowLength => rw [Core.drawRow_row hl, kissDraws_length]

/-! ### INITMIX as a run (R173) -/

/-- The core state after the first `n` lanes are filled. -/
def Core.fillLanes (c : Cfg) (k : Core) : Nat → Core
  | 0 => k
  | n + 1 => ((k.fillLanes c n).seedLane c n).drawRow c n

section
variable (c : Cfg) (k : Core) (n : Nat)

@[simp] theorem Core.fillLanes_mix_length : (k.fillLanes c n).mix.length = k.mix.length := by
  induction n with
  | zero => rfl
  | succ n ih => exact (Core.drawRow_mix_length _ _ _).trans ih

/-- The folded seed halves stay as MIXSEED left them (R25). -/
theorem Core.fillLanes_folds : (k.fillLanes c n).zb = k.zb ∧ (k.fillLanes c n).wb = k.wb := by
  induction n with
  | zero => exact ⟨rfl, rfl⟩
  | succ n ih => exact ih

/-- The generator from which lane `n` is filled depends on no lane before it. -/
theorem Core.seedLane_fillLanes_gl : ((k.fillLanes c n).seedLane c n).gl = laneSeed c k.zb k.wb n := by
  obtain ⟨hzb, hwb⟩ := k.fillLanes_folds c n
  rw [Core.seedLane, hzb, hwb]

end

/-- Every filled lane holds the draws of its own generator: the lanes after it leave it alone (R173). -/
theorem mixReg_fillLanes {c : Cfg} {k : Core} {n l j : Nat} (hn : n ≤ k.mix.length) (hl : l < n) (hj : j < c.numRegs) :
    mixReg (k.fillLanes c n).mix l j = kissOut ((kissAdvance c)^[j + 1] (laneSeed c k.zb k.wb l)) := by
  induction n with
  | zero => omega
  | succ n ih =>
    rw [Core.fillLanes]
    obtain rfl | hlt : l = n ∨ l < n := by omega
    · have hin : l < ((k.fillLanes c l).seedLane c l).mix.length := by rw [Core.seedLane, Core.fillLanes_mix_length]; omega
      rw [mixReg_drawRow hin hj, Core.seedLane_fillLanes_gl]
    · rw [mixReg_drawRow_of_ne (by omega), Core.seedLane, ih (by omega) hlt]

/-- Where the loop over the lanes begins with lane `n`; after the last lane, EPOCH (R211). -/
abbrev laneFillLoopAt (c : Cfg) (n : Nat) : Pc := laneLoopAt c 0x02#8 ⟨0x04#8, 0#8, 0#16⟩ n

section
variable {s : State} (hw : s.cfg.wf = true) (he : s.env = []) (hc : s.call = none)
include hw he hc

/-- LANESEED of lane `n` as a step. -/
theorem step_laneseedLoop {n : Nat} (hn : n < s.cfg.numLanes) (hpc : s.pc = laneFillLoopAt s.cfg n) :
    step s = .next ((s.withCore (s.core.seedLane s.cfg n)).goto (succLaneseed (BitVec.ofNat 16 n))) := by
  obtain ⟨-, hlanes, -⟩ := (Cfg.wf_iff s.cfg).1 hw
  have hidx : (BitVec.ofNat 16 n).toNat = n := idx_toNat (by omega)
  have hword : s.pc.word = encode (.laneseed (BitVec.ofNat 16 n)) := by rw [hpc, laneFillLoopAt, laneLoopAt_of_lt hn]; rfl
  have hrange : Instr.inRange s.cfg (.laneseed (BitVec.ofNat 16 n)) = true := decide_eq_true (by rwa [hidx])
  rw [step_of_word hw he hc hword rfl rfl hrange, exec_laneseed, hidx]

/-- LANEFILL of lane `n` as a step. -/
theorem step_lanefillLoop {n : Nat} (hn : n < s.cfg.numLanes) (hpc : s.pc = succLaneseed (BitVec.ofNat 16 n)) :
    step s = .next ((s.withCore (s.core.drawRow s.cfg n)).goto (laneFillLoopAt s.cfg (n + 1))) := by
  obtain ⟨-, hlanes, -⟩ := (Cfg.wf_iff s.cfg).1 hw
  have hidx : (BitVec.ofNat 16 n).toNat = n := idx_toNat (by omega)
  have hword : s.pc.word = encode (.lanefill (BitVec.ofNat 16 n)) := by rw [hpc]; rfl
  have hrange : Instr.inRange s.cfg (.lanefill (BitVec.ofNat 16 n)) = true := decide_eq_true (by rwa [hidx])
  rw [step_of_word hw he hc hword rfl rfl hrange, exec_lanefill, hidx, succLanefill, laneLoopAt_succ hw hn]

/-- One lane is two steps. -/
theorem run_fillLane {n : Nat} (hn : n < s.cfg.numLanes) (hpc : s.pc = laneFillLoopAt s.cfg n) :
    Host.Core.run Sys2Proof.core 2 s =
      .next ((s.withCore ((s.core.seedLane s.cfg n).drawRow s.cfg n)).goto (laneFillLoopAt s.cfg (n + 1))) :=
  run_add (run_one (step_laneseedLoop hw he hc hn hpc)) (run_one (step_lanefillLoop
    (s := (s.withCore (s.core.seedLane s.cfg n)).goto (succLaneseed (BitVec.ofNat 16 n))) hw he hc hn rfl))

/-- The loop over the lanes from its beginning. -/
theorem run_fillLanes (hpc : s.pc = laneFillLoopAt s.cfg 0) {n : Nat} (hn : n ≤ s.cfg.numLanes) :
    Host.Core.run Sys2Proof.core (2 * n) s =
      .next ((s.withCore (s.core.fillLanes s.cfg n)).goto (laneFillLoopAt s.cfg n)) := by
  induction n with
  | zero => rw [← hpc]; rfl
  | succ n ih =>
    exact run_add (ih (by omega)) (run_fillLane
      (s := (s.withCore (s.core.fillLanes s.cfg n)).goto (laneFillLoopAt s.cfg n)) hw he hc hn rfl)

/-- INITMIX, from MIXSEED to EPOCH: nothing but core state and `PC` changes. -/
theorem run_initmix (hpc : s.pc = ⟨0x01#8, 0#8, 0#16⟩) :
    Host.Core.run Sys2Proof.core (1 + 2 * s.cfg.numLanes) s =
      .next ((s.withCore ((s.core.foldSeed s.cfg s.seed).fillLanes s.cfg s.cfg.numLanes)).goto
        ⟨0x04#8, 0#8, 0#16⟩) := by
  have hseed : step s = .next ((s.withCore (s.core.foldSeed s.cfg s.seed)).goto succMixseed) :=
    step_of_word (i := .mixseed) hw he hc (by rw [hpc]; rfl) rfl rfl rfl
  have hstart : succMixseed = laneFillLoopAt s.cfg 0 := (laneLoopAt_zero hw _ _).symm
  have hend : laneFillLoopAt s.cfg s.cfg.numLanes = ⟨0x04#8, 0#8, 0#16⟩ := laneLoopAt_numLanes _ _ _
  rw [← hend]
  exact run_add (run_one hseed)
    (run_fillLanes (s := (s.withCore (s.core.foldSeed s.cfg s.seed)).goto succMixseed) hw he hc hstart le_rfl)

end

/-- Settles O23: the run is known (`run_initmix`), and every lane below `numLanes` is filled from the folds of MIXSEED. -/
theorem initmixFillsEveryLaneFromSeed : Obligations.InitmixFillsEveryLaneFromSeed := by
  intro s hw he hc hpc hmix
  exact ⟨_, run_initmix hw he hc hpc, rfl, fun l k hl hk =>
    mixReg_fillLanes (k := s.core.foldSeed s.cfg s.seed) hmix.ge hl hk⟩

end Sys2Proof.Machine
end

section
/-! The round mixer (R181 to R189, R199): the item index, the answer taken, the plan of the dataset merge, and the three
operations of all lanes, each of them one register written in every lane by what the lane's own row gives. -/

namespace Sys2Proof.Machine

open Sys2Proof

/-! ### The source pair of a draw (R186) -/

/-- Number `q` of the register numbers other than `a`, in ascending order. -/
def skipping (a q : Nat) : Nat := if a ≤ q then q + 1 else q

/-- The place of `b` among the register numbers other than `a`. -/
def placeWithout (a b : Nat) : Nat := if a < b then b - 1 else b

theorem skipping_ne (a q : Nat) : skipping a q ≠ a := by
  unfold skipping
  split <;> omega

theorem skipping_eq_iff {a b : Nat} (h : a ≠ b) (q : Nat) : skipping a q = b ↔ q = placeWithout a b := by
  unfold skipping placeWithout
  split <;> split <;> omega

theorem skipping_lt {n a q : Nat} (hq : q < n - 1) : skipping a q < n := by
  unfold skipping
  split <;> omega

theorem placeWithout_lt {n a b : Nat} (ha : a < n) (hb : b < n) (h : a ≠ b) : placeWithout a b < n - 1 := by
  unfold placeWithout
  split <;> omega

/-- The pair, with `combined` the draw modulo `numRegs * (numRegs - 1)`. -/
theorem srcPair_eq (c : Cfg) (draw : Word) :
    srcPair c draw = (draw.toNat % (c.numRegs * (c.numRegs - 1)) % c.numRegs,
      skipping (draw.toNat % (c.numRegs * (c.numRegs - 1)) % c.numRegs)
        (draw.toNat % (c.numRegs * (c.numRegs - 1)) / c.numRegs)) := rfl

section
variable {c : Cfg} (hlow : 2 ≤ c.numRegs) (hhigh : c.numRegs ≤ 65535)

include hlow in
theorem two_le_pairs : 2 ≤ c.numRegs * (c.numRegs - 1) :=
  Nat.mul_le_mul hlow (show 1 ≤ c.numRegs - 1 by omega)

include hhigh in
/-- There are fewer pairs than draws, so that every pair can be drawn. -/
theorem pairs_lt : c.numRegs * (c.numRegs - 1) < 2 ^ 32 :=
  calc c.numRegs * (c.numRegs - 1) ≤ 65535 * 65535 := Nat.mul_le_mul hhigh (by omega)
    _ < 2 ^ 32 := by decide

include hlow in
/-- The sources of a draw are two distinct register numbers. -/
theorem srcPair_distinct (draw : Word) :
    (srcPair c draw).1 < c.numRegs ∧ (srcPair c draw).2 < c.numRegs ∧ (srcPair c draw).1 ≠ (srcPair c draw).2 := by
  have hpairs := two_le_pairs hlow
  have hcombined : draw.toNat % (c.numRegs * (c.numRegs - 1)) < c.numRegs * (c.numRegs - 1) := Nat.mod_lt _ (by omega)
  rw [srcPair_eq]
  exact ⟨Nat.mod_lt _ (by omega), skipping_lt (Nat.div_lt_of_lt_mul hcombined), (skipping_ne _ _).symm⟩

include hhigh in
/-- The pair of a draw below the number of pairs, which is its own `combined`. -/
theorem srcPair_ofNat {m : Nat} (hm : m < c.numRegs * (c.numRegs - 1)) :
    srcPair c (BitVec.ofNat 32 m) = (m % c.numRegs, skipping (m % c.numRegs) (m / c.numRegs)) := by
  have hdraw : (BitVec.ofNat 32 m).toNat = m := by
    rw [BitVec.toNat_ofNat, Nat.mod_eq_of_lt (hm.trans (pairs_lt hhigh))]
  rw [srcPair_eq, hdraw, Nat.mod_eq_of_lt hm]

include hhigh in
/-- Every pair of distinct register numbers has exactly one number: the first is its remainder, the place of the second its
quotient. -/
theorem existsUnique_srcPair {a b : Nat} (ha : a < c.numRegs) (hb : b < c.numRegs) (hab : a ≠ b) :
    ∃! m, m < c.numRegs * (c.numRegs - 1) ∧ srcPair c (BitVec.ofNat 32 m) = (a, b) := by
  have hplace : placeWithout a b < c.numRegs - 1 := placeWithout_lt ha hb hab
  have hbound : a + c.numRegs * placeWithout a b < c.numRegs * (c.numRegs - 1) :=
    calc a + c.numRegs * placeWithout a b < c.numRegs + c.numRegs * placeWithout a b := by omega
      _ = c.numRegs * (placeWithout a b + 1) := by ring
      _ ≤ c.numRegs * (c.numRegs - 1) := Nat.mul_le_mul_left _ hplace
  refine ⟨a + c.numRegs * placeWithout a b, ⟨hbound, ?_⟩, fun m ⟨hm, hpair⟩ => ?_⟩
  · have hmod : (a + c.numRegs * placeWithout a b) % c.numRegs = a := by
      rw [Nat.add_mul_mod_self_left, Nat.mod_eq_of_lt ha]
    have hdiv : (a + c.numRegs * placeWithout a b) / c.numRegs = placeWithout a b := by
      rw [Nat.add_mul_div_left _ _ (by omega), Nat.div_eq_of_lt ha, Nat.zero_add]
    rw [srcPair_ofNat hhigh hbound, hmod, hdiv, (skipping_eq_iff hab _).2 rfl]
  · rw [srcPair_ofNat hhigh hm, Prod.mk.injEq] at hpair
    obtain ⟨hmod, hskip⟩ := hpair
    have hdiv : m / c.numRegs = placeWithout a b := (skipping_eq_iff hab _).1 (hmod ▸ hskip)
    rw [← Nat.mod_add_div m c.numRegs, hmod, hdiv]

end

/-- Settles O36: the bounds of the product, the pair by its definition, and its number by remainder and quotient. -/
theorem sourcePairIsBijection : Obligations.SourcePairIsBijection := fun _ hlow hhigh =>
  ⟨⟨two_le_pairs hlow, pairs_lt hhigh⟩, fun _ => rfl, srcPair_distinct hlow,
    fun _ _ ha hb hab => existsUnique_srcPair hhigh ha hb hab⟩

/-! ### What an operation of all lanes writes -/

/-- The register, the same in every lane, and the word that lane `l` computes from its own row (R199, R307). -/
structure LaneWrite where
  reg : Nat
  word : Nat → List Word → Word

/-- The write in every lane. -/
def LaneWrite.run (w : LaneWrite) (mix : List (List Word)) : List (List Word) := mixLanes mix w.reg w.word

/-- Every lane has register `reg` written from its old row, and nothing else. -/
theorem LaneWrite.run_registers (w : LaneWrite) (mix : List (List Word)) :
    (w.run mix).length = mix.length ∧
    ∀ l, l < mix.length → ((w.run mix).getD l []).length = (mix.getD l []).length ∧
      ∀ k, k < (mix.getD l []).length →
        mixReg (w.run mix) l k = if k = w.reg then w.word l (mix.getD l []) else mixReg mix l k := by
  refine ⟨mixLanes_length _ _ _, fun l hl => ⟨?_, fun k hk => mixReg_mixLanes _ _ _ l k hl hk⟩⟩
  rw [LaneWrite.run, mixLanes_getD _ _ _ _ hl, List.length_set]

/-- The new row of a lane is a function of its old row (R199). -/
theorem LaneWrite.run_row_congr (w : LaneWrite) {mix mix' : List (List Word)} {l : Nat}
    (hrow : mix'.getD l [] = mix.getD l []) (hl : l < mix.length) (hl' : l < mix'.length) :
    (w.run mix').getD l [] = (w.run mix).getD l [] := by
  rw [LaneWrite.run, LaneWrite.run, mixLanes_getD _ _ _ _ hl, mixLanes_getD _ _ _ _ hl', hrow]

/-! ### CACHEOP -/

/-- R184: the cache word at the lane's own offset, merged into `dst`. -/
def cacheopWrite (s : State) : LaneWrite where
  reg := (nextDst s.cfg s.core).1
  word _ row := applyMerge s.cfg (row.getD (nextDst s.cfg s.core).1 0#32)
    (s.cacheWord (cacheOffset s.cfg (row.getD (nextSrc s.cfg s.core).1 0#32))) (drawGs s.cfg s.core).1

theorem exec_cacheop (r : BitVec 8) (i : BitVec 16) (s : State) :
    exec (.cacheop r i) s =
      if s.core.mix.all (fun row =>
          decide (cacheOffset s.cfg (row.getD (nextSrc s.cfg s.core).1 0#32) < s.cfg.cacheSize)) then
        .next ((s.withCore { s.core with
          mix := (cacheopWrite s).run s.core.mix
          gs := kissAdvance s.cfg s.core.gs
          srcCnt := s.core.srcCnt + 1#32
          dstCnt := s.core.dstCnt + 1#32 }).goto (succCacheop s.cfg s.core.wpl r i))
      else .fault .cacheIndexAbsent := rfl

/-- Settles O34: a well-formed configuration meets the guard (`cacheop_guard`), and every lane has one register written
(`LaneWrite.run_registers`). -/
theorem cacheopMergesCacheWords : Obligations.CacheopMergesCacheWords := by
  refine fun s r i => ⟨by simp [encode, fieldsWord_eq_or], fun hw => ?_⟩
  exact ⟨_, (exec_cacheop r i s).trans (if_pos (cacheop_guard hw _ _)), (cacheopWrite s).run_registers s.core.mix⟩

/-! ### MATHOP -/

/-- R185: the math result of the two sources of the first draw, with the second as selector, merged into `dst` with the
third. -/
def mathopWrite (s : State) : LaneWrite where
  reg := (nextDst s.cfg s.core).1
  word _ row :=
    let g1 := kissAdvance s.cfg s.core.gs
    let g2 := kissAdvance s.cfg g1
    let pair := srcPair s.cfg (kissOut g1)
    applyMerge s.cfg (row.getD (nextDst s.cfg s.core).1 0#32)
      (applyMath s.cfg (row.getD pair.1 0#32) (row.getD pair.2 0#32) (kissOut g2)) (kissOut (kissAdvance s.cfg g2))

theorem exec_mathop (r : BitVec 8) (i : BitVec 16) (s : State) :
    exec (.mathop r i) s = .next ((s.withCore { s.core with
      mix := (mathopWrite s).run s.core.mix
      gs := kissAdvance s.cfg (kissAdvance s.cfg (kissAdvance s.cfg s.core.gs))
      dstCnt := s.core.dstCnt + 1#32 }).goto (succMathop s.cfg s.core.wpl r i)) := rfl

/-- Settles O35: MATHOP has no guard (`exec_mathop`), and every lane has one register written
(`LaneWrite.run_registers`). -/
theorem mathopMergesMathResults : Obligations.MathopMergesMathResults := fun s r i =>
  ⟨by simp [encode, fieldsWord_eq_or], _, exec_mathop r i s, (mathopWrite s).run_registers s.core.mix⟩

/-! ### DAGMERGE -/

/-- R188, R189: the lane's word of the item, merged into the planned register with the planned selector. -/
def dagmergeWrite (r : BitVec 8) (i : BitVec 16) (s : State) : LaneWrite where
  reg := s.core.pdst.getD i.toNat 0
  word l row := applyMerge s.cfg (row.getD (s.core.pdst.getD i.toNat 0) 0#32)
    (s.itemWord (laneOffset s.cfg s.core.wpl l r.toNat + i.toNat)) (s.core.psel.getD i.toNat 0#32)

theorem exec_dagmerge (r : BitVec 8) (i : BitVec 16) (s : State) :
    exec (.dagmerge r i) s =
      if (List.range s.core.mix.length).all
          (fun l => decide (laneOffset s.cfg s.core.wpl l r.toNat + i.toNat < s.cfg.itemMax)) then
        .next ((s.withCore { s.core with mix := (dagmergeWrite r i s).run s.core.mix }).goto
          (succDagmerge s.core.wpl r i))
      else .fault .itemIndexAbsent := rfl

/-- A position that the answer filled holds the answer's word (R66). -/
theorem State.itemWord_of_lt {s : State} {k : Nat} (hk : k < s.core.item.length) :
    s.itemWord k = s.core.item.getD k 0#32 := by
  simp [State.itemWord, List.getD_eq_getElem?_getD, hk]

/-- Where the item holds `numLanes * WPL` words, every lane reads a word of the answer (R66). -/
theorem dagmergeWrite_word {s : State} {i : BitVec 16} (hn : 1 ≤ s.cfg.numLanes) (hi : i.toNat < s.core.wpl)
    (hitem : s.cfg.numLanes * s.core.wpl ≤ s.core.item.length) (r : BitVec 8) (l : Nat) (row : List Word) :
    (dagmergeWrite r i s).word l row = applyMerge s.cfg (row.getD (s.core.pdst.getD i.toNat 0) 0#32)
      (s.core.item.getD (laneOffset s.cfg s.core.wpl l r.toNat + i.toNat) 0#32) (s.core.psel.getD i.toNat 0#32) := by
  rw [← State.itemWord_of_lt ((laneOffset_add_lt hn hi l r.toNat).trans_le hitem), dagmergeWrite]

/-- Settles O38: every lane's position is inside the buffer (`dagmerge_guard`) and inside the answer (`dagmergeWrite_word`). -/
theorem dagmergeMergesItemWords : Obligations.DagmergeMergesItemWords := by
  refine fun s r i => ⟨by simp [encode, fieldsWord_eq_or], fun hn hi hitem hmax => ?_⟩
  have hguard := dagmerge_guard hn hi (hitem.trans hmax) s.core.mix r.toNat
  have hregs := (dagmergeWrite r i s).run_registers s.core.mix
  simp only [dagmergeWrite_word hn hi hitem] at hregs
  exact ⟨_, (exec_dagmerge r i s).trans (if_pos hguard), hregs⟩

/-! ### The lanes are independent (R199, R306) -/

/-- Wherever CACHEOP completes, it leaves its write in `MIX`. -/
theorem exec_cacheop_mix {s t : State} {r : BitVec 8} {i : BitVec 16} (h : exec (.cacheop r i) s = .next t) :
    t.core.mix = (cacheopWrite s).run s.core.mix := by
  rw [exec_cacheop] at h
  split at h <;> cases h
  rfl

theorem exec_mathop_mix {s t : State} {r : BitVec 8} {i : BitVec 16} (h : exec (.mathop r i) s = .next t) :
    t.core.mix = (mathopWrite s).run s.core.mix := by
  cases (exec_mathop r i s).symm.trans h
  rfl

theorem exec_dagmerge_mix {s t : State} {r : BitVec 8} {i : BitVec 16} (h : exec (.dagmerge r i) s = .next t) :
    t.core.mix = (dagmergeWrite r i s).run s.core.mix := by
  rw [exec_dagmerge] at h
  split at h <;> cases h
  rfl

/-- One write serves every content of `MIX`: what the three operations draw, plan and read besides the row is not in `MIX`. -/
theorem exec_write_shared (s : State) {i : Instr}
    (hi : (∃ r n, i = .cacheop r n) ∨ (∃ r n, i = .mathop r n) ∨ ∃ r n, i = .dagmerge r n) :
    ∃ w : LaneWrite, ∀ (mix : List (List Word)) (t : State),
      exec i { s with core := { s.core with mix := mix } } = .next t → t.core.mix = w.run mix := by
  obtain ⟨r, n, rfl⟩ | ⟨r, n, rfl⟩ | ⟨r, n, rfl⟩ := hi
  case inl => exact ⟨cacheopWrite s, fun _ _ h => exec_cacheop_mix h⟩
  case inr.inl => exact ⟨mathopWrite s, fun _ _ h => exec_mathop_mix h⟩
  case inr.inr => exact ⟨dagmergeWrite r n s, fun _ _ h => exec_dagmerge_mix h⟩

/-- Settles O40: both states have the same write (`exec_write_shared`), and a lane's new row comes from that and its old row
(`LaneWrite.run_row_congr`). -/
theorem lanesAreIndependent : Obligations.LanesAreIndependent := by
  intro s s' t t' i l hi hs hrow hl hl' ht ht'
  obtain ⟨w, hwrite⟩ := exec_write_shared s hi
  rw [hs] at ht'
  rw [hwrite _ _ ht', hwrite s.core.mix t ht]
  exact w.run_row_congr hrow hl hl'

/-! ### ITEMSEL -/

theorem exec_itemsel (r : BitVec 8) (s : State) :
    exec (.itemsel r) s = .next ((s.withCore { s.core with
      itemIdx := BitVec.ofNat 32 ((mixReg s.core.mix (r.toNat % s.cfg.numLanes) 0).toNat % numItems s.cfg) }).goto
        (succItemsel r)) := rfl

/-- A remainder of a word is a word. -/
theorem ofNat_mod_toNat (v : Word) (n : Nat) : (BitVec.ofNat 32 (v.toNat % n)).toNat = v.toNat % n := by
  rw [BitVec.toNat_ofNat, Nat.mod_eq_of_lt ((Nat.mod_le _ _).trans_lt v.isLt)]

/-- On a well-formed configuration there is a dataset item (R9, R181). -/
theorem numItems_pos {c : Cfg} (hc : c.wf = true) : 0 < numItems c := by
  obtain ⟨-, -, -, -, -, -, hsize, -⟩ := (Cfg.wf_iff c).1 hc
  exact Nat.div_pos hsize (by decide)

/-- Settles O30: the index is a remainder by the number of items, which is not zero. -/
theorem itemselReducesRegisterZero : Obligations.ItemselReducesRegisterZero := by
  refine fun s r => ⟨by simp [encode, fieldsWord_eq_or], fun hw => ?_⟩
  have hidx := ofNat_mod_toNat (mixReg s.core.mix (r.toNat % s.cfg.numLanes) 0) (numItems s.cfg)
  exact ⟨_, hidx, hidx.trans_lt (Nat.mod_lt _ (numItems_pos hw)), exec_itemsel r s⟩

/-! ### LOOKUP -/

/-- An answer that fits the buffer is taken (R182). -/
theorem execLookup_of_item {s : State} {words : List Word} (hr : s.resp = some (.ok words))
    (hlen : words.length ≤ s.cfg.itemMax) (r : BitVec 8) :
    execLookup r s = .next ((s.takeItem words).goto (succLookup s.cfg (words.length / s.cfg.numLanes) r)) := by
  rw [execLookup, hr]
  exact if_pos hlen

/-- Settles O31: one lemma for the wait (`execLookup_of_resp_none`) and one for the answer taken. -/
theorem lookupTakesAnsweredItem : Obligations.LookupTakesAnsweredItem := fun _ r =>
  ⟨by simp [encode, fieldsWord_eq_or], fun hr => execLookup_of_resp_none hr r,
    fun _ hr hlen => execLookup_of_item hr hlen r⟩

/-! ### DAGPLAN -/

/-- The core state after entry `i` of the plan is set to register `dst` and to a selector drawn (R187). -/
def Core.planEntry (c : Cfg) (i dst : Nat) (k : Core) : Core :=
  { k with
    gs := kissAdvance c k.gs
    pdst := k.pdst.set i dst
    psel := k.psel.set i (kissOut (kissAdvance c k.gs)) }

/-- Entry 0 is planned for register 0 and moves no cursor. -/
theorem exec_dagplan_zero (r : BitVec 8) (s : State) :
    exec (.dagplan r 0#16) s =
      .next ((s.withCore (s.core.planEntry s.cfg 0 0)).goto (succDagplan s.core.wpl r 0#16)) := rfl

/-- Every other entry is planned for the next destination. -/
theorem exec_dagplan_of_ne {i : BitVec 16} (hi : i ≠ 0#16) (r : BitVec 8) (s : State) :
    exec (.dagplan r i) s =
      .next ((s.withCore ((nextDst s.cfg s.core).2.planEntry s.cfg i.toNat (nextDst s.cfg s.core).1)).goto
        (succDagplan s.core.wpl r i)) := by
  show execDagplan r i s = _
  rw [execDagplan, if_neg hi]
  rfl

/-- Settles O37: the two kinds of entry, each by its lemma. -/
theorem dagplanWritesOneEntry : Obligations.DagplanWritesOneEntry := by
  refine fun s r i => ⟨by simp [encode, fieldsWord_eq_or], fun hi => ?zero, fun hi => exec_dagplan_of_ne hi r s⟩
  case zero =>
    subst hi
    exact exec_dagplan_zero r s

end Sys2Proof.Machine
end

section
/-! The sequencer's turn: where an operation stands, what it leaves of `WPL` and of the pending inputs, and what the turn is in a
computation and at rest. -/

namespace Sys2Proof.Machine

open Sys2Proof Sys2Proof.Laws

/-! ### Where an operation stands -/

/-- The position of a decoded operation has the fields of its word (R91). -/
theorem Pc.eq_of_decode {p q : Pc} {i : Instr} (hd : decodeS p.word = .ok i) (hi : encode i = q.word) : p = q := by
  obtain ⟨-, -, hp⟩ := encodeInvertsDecode .S _ _ hd
  have hword : p.word = q.word := hp.symm.trans hi
  have hop : p.op = q.op := by simpa using congrArg opField hword
  have hr : p.r = q.r := by simpa using congrArg roundField hword
  have hidx : p.idx = q.idx := by simpa using congrArg idxField hword
  cases p
  cases q
  exact (Pc.mk.injEq ..).mpr ⟨hop, hr, hidx⟩

/-! ### What an operation leaves alone -/

/-- No instruction takes or adds a pending input (R6). -/
theorem exec_env {i : Instr} {s t : State} (h : exec i s = .next t) : t.env = s.env := by
  cases i
  case start => rcases execStart_cases h with ⟨-, rfl⟩ | ⟨-, -, rfl⟩ <;> rfl
  case abort => rcases execAbort_cases h with ⟨-, rfl⟩ | ⟨-, rfl⟩ <;> rfl
  case lookup => rcases execLookup_cases h with ⟨-, rfl⟩ | ⟨_, -, -, rfl⟩ | ⟨_, -, -, rfl⟩ <;> rfl
  case cacheop | dagmerge =>
    simp only [exec, execCacheop, execDagmerge] at h
    split at h <;> cases h
    simp
  case kseed | knext => cases h; cases hg : s.port.gen <;> simp
  all_goals
    cases h
    simp

/-- Of the micro-operations only LOOKUP writes `WPL` (R31, R182). -/
theorem exec_wpl {i : Instr} {s t : State} (hf : i.format = .S) (hl : ∀ r, i ≠ .lookup r) (h : exec i s = .next t) :
    t.core.wpl = s.core.wpl := by
  cases i
  case lookup r => exact absurd rfl (hl r)
  case cacheop =>
    rw [exec_cacheop] at h
    split at h <;> cases h
    simp
  case dagmerge =>
    rw [exec_dagmerge] at h
    split at h <;> cases h
    simp
  case mathop r i => cases (exec_mathop r i s).symm.trans h; simp
  case dagplan r i =>
    by_cases hi : i = 0#16
    · subst hi
      cases (exec_dagplan_zero r s).symm.trans h
      rfl
    · cases (exec_dagplan_of_ne hi r s).symm.trans h
      rfl
  case fnv1a | kseed | knext | nsrc | ndst | merge | math | nop | start | abort => cases hf
  case mergeRow0 | mergeRow1 | mergeRow2 | mergeRow3 => cases hf
  case mathRow0 | mathRow1 | mathRow2 | mathRow3 | mathRow4 | mathRow5 | mathRow6 | mathRow7 | mathRow8 | mathRow9
    | mathRow10 => cases hf
  case lanefill l => cases (exec_lanefill l s).symm.trans h; simp [Core.drawRow]
  case fyswap i => cases (exec_fyswap i s).symm.trans h; simp [Core.exchange]
  all_goals
    cases h
    simp

/-! ### The sequencer's turn in a state of the invariant -/

section
variable {s : State} (hs : s.Inv)
include hs

/-- The operation that a computation is about to run. -/
theorem State.Inv.fetchSequencer_of_busy (hb : s.st = .busy) :
    ∃ i, decodeS s.pc.word = .ok i ∧ fetchSequencer s = .run i s := by
  obtain ⟨-, -, i, hd, hr, -⟩ := (hs.midRun hb).working
  obtain ⟨-, -, -, -, -, -, -, hcall, -⟩ := hs
  exact ⟨i, hd, fetchSequencer_of_pc hcall hd hr⟩

/-- Outside a computation the sequencer's turn changes nothing (R215 to R217). -/
theorem State.Inv.fetchSequencer_at_rest (hb : s.st ≠ .busy) : (fetchSequencer s).outcome = .next s := by
  obtain ⟨-, -, -, ⟨hidle, -, hdone, herror⟩, -, -, -, hcall, -⟩ := hs
  have run_at {p : Pc} {i : Instr} (hpc : s.pc = p) (hd : decodeS p.word = .ok i) (hr : i.inRange s.cfg = true) :
      (fetchSequencer s).outcome = exec i s := by
    subst hpc
    rw [fetchSequencer_of_pc hcall hd hr, Fetched.outcome_run]
  cases hst : s.st
  case busy => exact absurd hst hb
  case idle =>
    rw [run_at (i := .idle) (hidle hst) (by decide) rfl]
    exact congrArg Host.Outcome.next (State.goto_self (hidle hst))
  case done =>
    rw [run_at (i := .halt) (hdone hst) (by decide) rfl]
    exact congrArg Host.Outcome.next (State.enterHalt_self hst (hdone hst))
  case error =>
    rw [run_at (i := .fault) (herror hst) (by decide) rfl]
    exact congrArg Host.Outcome.next (State.goto_self (herror hst))

end

end Sys2Proof.Machine
end

section
/-! A computation ends: the number of micro-operations that can still follow falls with each of them, and no agent raises it
(R211). -/

namespace Sys2Proof.Machine

open Sys2Proof Sys2Proof.Laws

/-! ### How many micro-operations can follow -/

section
variable (c : Cfg)

/-- At most so many micro-operations in one round: the operations of its body and, for each word of the greatest share an answer
can give, a DAGPLAN and a DAGMERGE. -/
def roundBound : Nat := 2 + 2 * max c.numCacheAccesses c.numMathOperations + 2 * (c.itemMax / c.numLanes)

/-- At most so many after round `r`: the rounds after it and the reduction. -/
def afterRound (r : BitVec 8) : Nat := (63 - r.toNat) * roundBound c + (2 * c.numLanes + 1)

/-- At most so many from round 0 on. -/
def fromRounds : Nat := roundBound c + afterRound c 0#8

/-- At most so many micro-operations of the computation from a position on, the one that stands there included, while `wpl` is
the share of the round. Before LOOKUP the share is not known yet and does not count. -/
def microOpsLeft (p : Pc) (wpl : Nat) : Nat :=
  match p.op.toNat with
  | 0x01 => 1 + (2 * c.numLanes + (2 + (c.numRegs + fromRounds c)))
  | 0x02 => 2 * (c.numLanes - p.idx.toNat) + (2 + (c.numRegs + fromRounds c))
  | 0x03 => 2 * (c.numLanes - p.idx.toNat) - 1 + (2 + (c.numRegs + fromRounds c))
  | 0x04 => 2 + (c.numRegs + fromRounds c)
  | 0x05 => 1 + (c.numRegs + fromRounds c)
  | 0x06 => p.idx.toNat + fromRounds c
  | 0x07 => roundBound c + afterRound c p.r
  | 0x08 => roundBound c - 1 + afterRound c p.r
  | 0x09 => 2 * (max c.numCacheAccesses c.numMathOperations - p.idx.toNat) + 2 * wpl + afterRound c p.r
  | 0x0A => 2 * (max c.numCacheAccesses c.numMathOperations - p.idx.toNat) - 1 + 2 * wpl + afterRound c p.r
  | 0x0B => wpl - p.idx.toNat + wpl + afterRound c p.r
  | 0x0C => wpl - p.idx.toNat + afterRound c p.r
  | 0x0D => c.numLanes - p.idx.toNat + c.numLanes + 1
  | 0x0E => c.numLanes - p.idx.toNat + 1
  | 0x0F => 1
  | _ => 0

/-! ### The count at the targets of the successor function -/

theorem microOpsLeft_seqEndround (r : BitVec 8) (wpl : Nat) : microOpsLeft c (seqEndround r) wpl ≤ afterRound c r := by
  rcases seqEndround_cases r with ⟨hr, e⟩ | ⟨-, e⟩ <;> rw [e]
  · have hnext : (r + 1#8).toNat = r.toNat + 1 := by bv_omega
    have hrounds : 63 - r.toNat = 63 - (r.toNat + 1) + 1 := by omega
    show roundBound c + afterRound c (r + 1#8) ≤ afterRound c r
    rw [afterRound, afterRound, hnext, hrounds, Nat.add_one_mul (63 - (r.toNat + 1))]
    omega
  · show c.numLanes - (0#16).toNat + c.numLanes + 1 ≤ afterRound c r
    rw [afterRound]
    omega

variable {c} (hc : c.wf = true) {wpl : Nat}
include hc

section
variable (hw : wpl ≤ c.itemMax / c.numLanes)
include hw

theorem microOpsLeft_seqDmerge (r : BitVec 8) (i : Nat) :
    microOpsLeft c (seqDmerge wpl r i) wpl ≤ wpl - i + afterRound c r := by
  obtain ⟨-, -, -, -, -, -, -, -, -, -, -, -, hshare⟩ := (Cfg.wf_iff c).1 hc
  rcases seqDmerge_cases wpl r i with ⟨hi, e⟩ | ⟨-, e⟩ <;> rw [e]
  · show wpl - (BitVec.ofNat 16 i).toNat + afterRound c r ≤ _
    rw [idx_toNat (by omega)]
  · exact (microOpsLeft_seqEndround c r wpl).trans (Nat.le_add_left _ _)

theorem microOpsLeft_seqPlan (r : BitVec 8) (i : Nat) :
    microOpsLeft c (seqPlan wpl r i) wpl ≤ wpl - i + wpl + afterRound c r := by
  obtain ⟨-, -, -, -, -, -, -, -, -, -, -, -, hshare⟩ := (Cfg.wf_iff c).1 hc
  rcases seqPlan_cases wpl r i with ⟨hi, e⟩ | ⟨-, e⟩ <;> rw [e]
  · show wpl - (BitVec.ofNat 16 i).toNat + wpl + afterRound c r ≤ _
    rw [idx_toNat (by omega)]
  · have := microOpsLeft_seqDmerge hc hw r 0
    omega

theorem microOpsLeft_seqBody (r : BitVec 8) (i : Nat) : microOpsLeft c (seqBody c wpl r i) wpl ≤
    2 * (max c.numCacheAccesses c.numMathOperations - i) + 2 * wpl + afterRound c r := by
  obtain ⟨-, -, -, -, hcache, hmath, -⟩ := (Cfg.wf_iff c).1 hc
  rcases seqBody_cases c wpl r i with ⟨hi, e⟩ | ⟨-, hi, e⟩ | ⟨-, -, e⟩ <;> rw [e]
  · show 2 * (_ - (BitVec.ofNat 16 i).toNat) + 2 * wpl + afterRound c r ≤ _
    rw [idx_toNat (by omega)]
  · show 2 * (_ - (BitVec.ofNat 16 i).toNat) - 1 + 2 * wpl + afterRound c r ≤ _
    rw [idx_toNat (by omega)]
    omega
  · have := microOpsLeft_seqPlan hc hw r 0
    omega

end

/-! ### The count at the successor of each operation -/

omit hc in
theorem microOpsLeft_succLaneseed {l : BitVec 16} (hl : l.toNat < c.numLanes) :
    microOpsLeft c (succLaneseed l) wpl < microOpsLeft c ⟨0x02#8, 0#8, l⟩ wpl := by
  show 2 * (c.numLanes - l.toNat) - 1 + _ < 2 * (c.numLanes - l.toNat) + _
  omega

theorem microOpsLeft_succLanefill {l : BitVec 16} (hl : l.toNat < c.numLanes) :
    microOpsLeft c (succLanefill c l) wpl < microOpsLeft c ⟨0x03#8, 0#8, l⟩ wpl := by
  unfold succLanefill
  split
  case isTrue h =>
    show 2 * (c.numLanes - (l + 1#16).toNat) + _ < 2 * (c.numLanes - l.toNat) - 1 + _
    rw [nextLane_toNat hc h]
    omega
  case isFalse => exact Nat.lt_add_of_pos_left (by show 0 < 2 * (c.numLanes - l.toNat) - 1; omega)

theorem microOpsLeft_succSchseed :
    microOpsLeft c (succSchseed c) wpl < microOpsLeft c ⟨0x05#8, 0#8, 0#16⟩ wpl := by
  obtain ⟨-, -, -, hregs, -⟩ := (Cfg.wf_iff c).1 hc
  show (BitVec.ofNat 16 c.numRegs).toNat + _ < 1 + (c.numRegs + _)
  rw [idx_toNat hregs]
  omega

omit hc in
theorem microOpsLeft_succFyswap {i : BitVec 16} (hi : 2 ≤ i.toNat) :
    microOpsLeft c (succFyswap i) wpl < microOpsLeft c ⟨0x06#8, 0#8, i⟩ wpl := by
  unfold succFyswap
  split
  case isTrue h =>
    have hpred : (i - 1#16).toNat < i.toNat := by bv_omega
    exact Nat.add_lt_add_right hpred _
  case isFalse => exact Nat.lt_add_of_pos_left (by show 0 < i.toNat; omega)

section
variable (hw : wpl ≤ c.itemMax / c.numLanes)
include hw

/-- LOOKUP has room for any share that an answer can give, whatever the share before it was. -/
theorem microOpsLeft_succLookup (r : BitVec 8) (i : BitVec 16) (old : Nat) :
    microOpsLeft c (succLookup c wpl r) wpl < microOpsLeft c ⟨0x08#8, r, i⟩ old := by
  have hbody := microOpsLeft_seqBody hc hw r 0
  show microOpsLeft c (seqBody c wpl r 0) wpl < roundBound c - 1 + afterRound c r
  rw [roundBound]
  omega

theorem microOpsLeft_succMathop (r : BitVec 8) {i : BitVec 16} (hi : i.toNat < c.numMathOperations) :
    microOpsLeft c (succMathop c wpl r i) wpl < microOpsLeft c ⟨0x0A#8, r, i⟩ wpl := by
  have hbody := microOpsLeft_seqBody hc hw r (i.toNat + 1)
  show microOpsLeft c (seqBody c wpl r (i.toNat + 1)) wpl <
    2 * (max c.numCacheAccesses c.numMathOperations - i.toNat) - 1 + 2 * wpl + afterRound c r
  omega

theorem microOpsLeft_succCacheop (r : BitVec 8) {i : BitVec 16} (hi : i.toNat < c.numCacheAccesses) :
    microOpsLeft c (succCacheop c wpl r i) wpl < microOpsLeft c ⟨0x09#8, r, i⟩ wpl := by
  have hbody := microOpsLeft_seqBody hc hw r (i.toNat + 1)
  unfold succCacheop
  split
  case isTrue =>
    show 2 * (max c.numCacheAccesses c.numMathOperations - i.toNat) - 1 + 2 * wpl + afterRound c r <
      2 * (max c.numCacheAccesses c.numMathOperations - i.toNat) + 2 * wpl + afterRound c r
    omega
  case isFalse =>
    show _ < 2 * (max c.numCacheAccesses c.numMathOperations - i.toNat) + 2 * wpl + afterRound c r
    omega

theorem microOpsLeft_succDagplan (r : BitVec 8) {i : BitVec 16} (hi : i.toNat < wpl) :
    microOpsLeft c (succDagplan wpl r i) wpl < microOpsLeft c ⟨0x0B#8, r, i⟩ wpl := by
  have hplan := microOpsLeft_seqPlan hc hw r (i.toNat + 1)
  show microOpsLeft c (seqPlan wpl r (i.toNat + 1)) wpl < wpl - i.toNat + wpl + afterRound c r
  omega

theorem microOpsLeft_succDagmerge (r : BitVec 8) {i : BitVec 16} (hi : i.toNat < wpl) :
    microOpsLeft c (succDagmerge wpl r i) wpl < microOpsLeft c ⟨0x0C#8, r, i⟩ wpl := by
  have hmerge := microOpsLeft_seqDmerge hc hw r (i.toNat + 1)
  show microOpsLeft c (seqDmerge wpl r (i.toNat + 1)) wpl < wpl - i.toNat + afterRound c r
  omega

end

theorem microOpsLeft_succLanehash {l : BitVec 16} (hl : l.toNat < c.numLanes) :
    microOpsLeft c (succLanehash c l) wpl < microOpsLeft c ⟨0x0D#8, 0#8, l⟩ wpl := by
  unfold succLanehash
  split
  case isTrue h =>
    show c.numLanes - (l + 1#16).toNat + c.numLanes + 1 < c.numLanes - l.toNat + c.numLanes + 1
    rw [nextLane_toNat hc h]
    omega
  case isFalse =>
    show c.numLanes - (0#16).toNat + 1 < c.numLanes - l.toNat + c.numLanes + 1
    omega

theorem microOpsLeft_succDigfold {l : BitVec 16} (hl : l.toNat < c.numLanes) :
    microOpsLeft c (succDigfold c l) wpl < microOpsLeft c ⟨0x0E#8, 0#8, l⟩ wpl := by
  unfold succDigfold
  split
  case isTrue h =>
    show c.numLanes - (l + 1#16).toNat + 1 < c.numLanes - l.toNat + 1
    rw [nextLane_toNat hc h]
    omega
  case isFalse =>
    show 1 < c.numLanes - l.toNat + 1
    omega

/-- Every micro-operation of a computation leads to a position with a smaller count (R211), LOOKUP whatever the share was
before it. -/
theorem microOpsLeft_successor {p q : Pc} {i : Instr} {old : Nat} (hp : p.working c old) (hd : decodeS p.word = .ok i)
    (hw : wpl ≤ c.itemMax / c.numLanes) (hold : (∀ r, i ≠ .lookup r) → wpl = old)
    (hq : Instr.successor c (fun _ => wpl) i = some q) : microOpsLeft c q wpl < microOpsLeft c p old := by
  obtain ⟨-, hhigh, j, hj, hr, he⟩ := hp
  obtain rfl : j = i := Decoded.ok.inj (hj.symm.trans hd)
  -- the position and its successor, read off the operation
  have falls {x y : Pc} (hx : encode j = x.word) (hy : Instr.successor c (fun _ => wpl) j = some y)
      (h : microOpsLeft c y wpl < microOpsLeft c x old) : microOpsLeft c q wpl < microOpsLeft c p old := by
    rwa [Pc.eq_of_decode hd hx, Option.some.inj (hq.symm.trans hy)]
  by_cases hl : ∃ r, j = .lookup r
  · obtain ⟨r, rfl⟩ := hl
    exact falls (x := ⟨0x08#8, r, 0#16⟩) rfl rfl (microOpsLeft_succLookup hc hw r 0#16 old)
  obtain rfl := hold fun r e => hl ⟨r, e⟩
  cases j
  case lookup r => exact absurd ⟨r, rfl⟩ hl
  case mixseed => exact falls (x := ⟨0x01#8, 0#8, 0#16⟩) rfl rfl (Nat.lt_add_of_pos_left Nat.one_pos)
  case laneseed l => exact falls (x := ⟨0x02#8, 0#8, l⟩) rfl rfl (microOpsLeft_succLaneseed (of_decide_eq_true hr))
  case lanefill l => exact falls (x := ⟨0x03#8, 0#8, l⟩) rfl rfl (microOpsLeft_succLanefill hc (of_decide_eq_true hr))
  case epoch => exact falls (x := ⟨0x04#8, 0#8, 0#16⟩) rfl rfl (Nat.add_lt_add_right (by decide) _)
  case schseed => exact falls (x := ⟨0x05#8, 0#8, 0#16⟩) rfl rfl (microOpsLeft_succSchseed hc)
  case fyswap i =>
    obtain ⟨h2, -⟩ := Bool.and_eq_true_iff.1 hr
    exact falls (x := ⟨0x06#8, 0#8, i⟩) rfl rfl (microOpsLeft_succFyswap (of_decide_eq_true h2))
  case itemsel r =>
    have hround : roundBound c - 1 < roundBound c := Nat.sub_lt (by rw [roundBound]; omega) Nat.one_pos
    exact falls (x := ⟨0x07#8, r, 0#16⟩) rfl rfl (Nat.add_lt_add_right hround _)
  case cacheop r i =>
    obtain ⟨-, hi⟩ := Bool.and_eq_true_iff.1 hr
    exact falls (x := ⟨0x09#8, r, i⟩) rfl rfl (microOpsLeft_succCacheop hc hw r (of_decide_eq_true hi))
  case mathop r i =>
    obtain ⟨-, hi⟩ := Bool.and_eq_true_iff.1 hr
    exact falls (x := ⟨0x0A#8, r, i⟩) rfl rfl (microOpsLeft_succMathop hc hw r (of_decide_eq_true hi))
  case dagplan r i => exact falls (x := ⟨0x0B#8, r, i⟩) rfl rfl (microOpsLeft_succDagplan hc hw r (of_decide_eq_true he))
  case dagmerge r i =>
    exact falls (x := ⟨0x0C#8, r, i⟩) rfl rfl (microOpsLeft_succDagmerge hc hw r (of_decide_eq_true he))
  case lanehash l => exact falls (x := ⟨0x0D#8, 0#8, l⟩) rfl rfl (microOpsLeft_succLanehash hc (of_decide_eq_true hr))
  case digfold l => exact falls (x := ⟨0x0E#8, 0#8, l⟩) rfl rfl (microOpsLeft_succDigfold hc (of_decide_eq_true hr))
  case serial => exact falls (x := ⟨0x0F#8, 0#8, 0#16⟩) rfl rfl Nat.one_pos
  case halt =>
    rw [Pc.eq_of_decode (q := ⟨0x10#8, 0#8, 0#16⟩) hd rfl] at hhigh
    exact absurd hhigh (by decide)
  all_goals cases hq

end

/-! ### The count in a running computation -/

/-- What of a computation's state the count looks at. -/
def State.microOpsLeft (s : State) : Nat := Machine.microOpsLeft s.cfg s.pc s.core.wpl

/-- A micro-operation of a computation finds the share that it leaves in `WPL`, LOOKUP in the answer it takes; but for the wait
and the fault entry (R182, R272). -/
theorem exec_meetsShare {i : Instr} {s t : State} (hf : i.format = .S) (hwait : (∃ r, i = .lookup r) → s.resp ≠ none)
    (hst : t.st ≠ .error) (h : exec i s = .next t) : Instr.meetsShare (fun _ => t.core.wpl) i s := by
  by_cases hl : ∃ r, i = .lookup r
  · obtain ⟨r, rfl⟩ := hl
    rcases execLookup_cases h with ⟨hnone, -⟩ | ⟨words, hresp, hlen, rfl⟩ | ⟨_, -, -, rfl⟩
    · exact absurd hnone (hwait ⟨r, rfl⟩)
    · exact ⟨words, hresp, hlen, rfl⟩
    · exact absurd rfl hst
  · have hwpl := exec_wpl hf (fun r e => hl ⟨r, e⟩) h
    cases i
    case lookup r => exact absurd ⟨r, rfl⟩ hl
    case cacheop | mathop | dagplan | dagmerge => exact hwpl.symm
    all_goals trivial

/-- A micro-operation of a computation has a successor (R211). -/
theorem successor_isSome {i : Instr} (c : Cfg) (wpls : Nat → Nat) (hf : i.format = .S) (hlow : 0x01 ≤ OpCode.number i)
    (hhigh : OpCode.number i ≤ 0x0F) : ∃ q, Instr.successor c wpls i = some q := by
  cases i
  case idle => cases hlow
  case fault => exact absurd hhigh (by decide)
  case fnv1a | kseed | knext | nsrc | ndst | merge | math | nop | start | abort => cases hf
  case mergeRow0 | mergeRow1 | mergeRow2 | mergeRow3 => cases hf
  case mathRow0 | mathRow1 | mathRow2 | mathRow3 | mathRow4 | mathRow5 | mathRow6 | mathRow7 | mathRow8 | mathRow9
    | mathRow10 => cases hf
  all_goals exact ⟨_, rfl⟩

/-- While a micro-operation of a computation stands in `PC`, it counts itself. -/
theorem MidRun.microOpsLeft_pos {c : Cfg} {k : Core} {p : Pc} (hc : c.wf = true) (hm : MidRun c k p) :
    0 < microOpsLeft c p k.wpl := by
  obtain ⟨hlow, hhigh, i, hd, -⟩ := id hm.working
  obtain ⟨hf, hn⟩ := decodeS_number hd
  rw [opField_fieldsWord] at hn
  obtain ⟨q, hq⟩ := successor_isSome c (fun _ => k.wpl) hf (hn ▸ hlow) (hn ▸ hhigh)
  exact Nat.zero_lt_of_lt (microOpsLeft_successor hc hm.working hd hm.shape.wpl_le (fun _ => rfl) hq)

/-- Every micro-operation of a running computation that does not wait lowers the count: at the fault entry nothing is left, else
it goes on with its successor. -/
theorem State.Inv.exec_lowers {s t : State} {i : Instr} (hs : s.Inv) (hb : s.st = .busy) (hd : decodeS s.pc.word = .ok i)
    (hwait : s.lookupOutstanding = false) (h : exec i s = .next t) : t.microOpsLeft < s.microOpsLeft := by
  have hm := hs.midRun hb
  have ht : t.Inv := hs.exec_sequencer hd h
  obtain ⟨hc, -⟩ := id hs
  obtain ⟨-, hshape, -, ⟨-, -, -, hfault⟩, -⟩ := ht
  have hcfg : t.cfg = s.cfg := ((s.inputs_eq_iff t).1 (exec_inputs h)).1
  rw [State.microOpsLeft, State.microOpsLeft, hcfg]
  by_cases herr : t.st = .error
  · rw [hfault herr]
    exact hm.microOpsLeft_pos hc
  · obtain ⟨hf, hlow, hhigh⟩ := hm.operation hd
    obtain ⟨q, hq⟩ := successor_isSome s.cfg (fun _ => t.core.wpl) hf hlow hhigh
    have hresp : (∃ r, i = .lookup r) → s.resp ≠ none := by
      rintro ⟨r, rfl⟩ hnone
      have hpc : s.pc = ⟨0x08#8, r, 0#16⟩ := Pc.eq_of_decode hd rfl
      have hout : s.lookupOutstanding = true := s.lookupOutstanding_iff.2 ⟨hb, by rw [hpc], hnone⟩
      exact Bool.false_ne_true (hwait.symm.trans hout)
    rw [exec_pc_of_successor hq (exec_meetsShare hf hresp herr h) h]
    exact microOpsLeft_successor hc hm.working hd (hcfg ▸ hshape.wpl_le) (fun hl => exec_wpl hf hl h) hq

/-- In a running computation the micro-operation in `PC` completes (R281). -/
theorem State.Inv.exec_completes {s : State} {i : Instr} (hs : s.Inv) (hb : s.st = .busy) (hd : decodeS s.pc.word = .ok i) :
    ∃ t, exec i s = .next t := by
  obtain ⟨hc, -⟩ := id hs
  by_cases hl : ∃ r, i = .lookup r
  · obtain ⟨r, rfl⟩ := hl
    show ∃ t, execLookup r s = .next t
    unfold execLookup
    split
    · exact ⟨_, rfl⟩
    · exact ⟨_, rfl⟩
    · split <;> exact ⟨_, rfl⟩
  · by_cases hserial : i = .serial
    · exact ⟨_, by rw [hserial]; rfl⟩
    · obtain ⟨k, p, h, -⟩ := exec_advances hc (hs.midRun hb) hd (fun r e => hl ⟨r, e⟩) hserial
      exact ⟨_, h⟩

/-- The sequencer's turn in a running computation: it completes, and lowers the count unless it waits. -/
theorem State.Inv.sequencer_lowers {s : State} (hs : s.Inv) (hb : s.st = .busy) (hwait : s.lookupOutstanding = false) :
    ∃ t, (fetchSequencer s).outcome = .next t ∧ t.microOpsLeft < s.microOpsLeft := by
  obtain ⟨i, hd, hf⟩ := hs.fetchSequencer_of_busy hb
  obtain ⟨t, h⟩ := hs.exec_completes hb hd
  exact ⟨t, by rw [hf]; exact h, hs.exec_lowers hb hd hwait h⟩

/-- A host command that leaves a computation running changes nothing of it (R257 to R259). -/
theorem exec_command_microOpsLeft {s t : State} {w : Word} {i : Instr} (hb : s.st = .busy) (ht : t.st = .busy)
    (hd : decode .H w = .ok i) (h : exec i s = .next t) : t.microOpsLeft = s.microOpsLeft := by
  rcases decodeH_cases hd with ⟨-, rfl⟩ | ⟨-, rfl⟩ | ⟨-, rfl⟩
  · cases h
    rfl
  · rcases execStart_cases h with ⟨-, rfl⟩ | ⟨hn, -⟩
    · rfl
    · exact absurd hb hn
  · rcases execAbort_cases h with ⟨-, rfl⟩ | ⟨hn, -⟩
    · cases ht
    · exact absurd hb hn

/-- No turn of an agent that leaves a computation running raises the count: only the sequencer's changes it. -/
theorem State.Inv.turn_microOpsLeft_le {s t : State} {e : Event} (hs : s.Inv) (hb : s.st = .busy) (ht : t.st = .busy)
    (h : Turn s e t) : t.microOpsLeft ≤ s.microOpsLeft := by
  cases h
  case sequencer i _ hd _ h =>
    cases hwait : s.lookupOutstanding
    case false => exact (hs.exec_lowers hb hd hwait h).le
    case true =>
      obtain ⟨-, hop, hresp⟩ := s.lookupOutstanding_iff.1 hwait
      obtain rfl := decodeS_lookup hd (by rw [State.pcreg_eq, opField_fieldsWord, hop])
      cases (execLookup_of_resp_none hresp _).symm.trans h
      exact le_rfl
  case call hcall _ _ =>
    obtain ⟨-, -, -, -, -, -, -, hnone, -⟩ := hs
    cases hnone.symm.trans hcall
  case hostRead offset width =>
    obtain ⟨v, n, e⟩ := s.hostRead_frame offset width
    rw [e]
    exact le_rfl
  case command w i hd h => exact (exec_command_microOpsLeft hb ht hd h).le
  case hostData => rw [State.hostWriteData_of_busy hb]; exact le_rfl
  case hostRefused => exact le_rfl
  case answer =>
    obtain ⟨r, e⟩ := s.takeAnswer_frame
    rw [e]
    exact le_rfl
  case staleAnswer => exact le_rfl
  case dataset d hn => exact absurd hb hn
  case reset => cases ht

/-- Settles O9: the measure is the count of the micro-operations left; the sequencer's turn lowers it (`sequencer_lowers`), and
no turn raises it. -/
theorem computationIsFinite : Obligations.ComputationIsFinite := by
  refine ⟨microOpsLeft, fun s hs hb => ⟨fun hwait henv => ?lowers, fun t h ht => ?never⟩⟩
  case lowers =>
    obtain ⟨hc, -⟩ := id hs
    rcases henv with he | ⟨rest, he⟩
    · rw [step_nil hc he]
      exact hs.sequencer_lowers hb hwait
    · rw [step_sequencer hc he]
      exact (hs.with_free rest s.werr s.rdata s.freeCount).sequencer_lowers hb hwait
  case never =>
    obtain ⟨-, ⟨-, hturn⟩ | ⟨e, rest, -, hturn⟩⟩ := step_turn h
    · exact hs.turn_microOpsLeft_le hb ht hturn
    · exact (hs.with_free rest s.werr s.rdata s.freeCount).turn_microOpsLeft_le hb ht hturn

end Sys2Proof.Machine
end

section
/-! The successor function inside a round, the digest reduction and the resting operations (R211 to R217), and the length of the
written run (R218). -/

namespace Sys2Proof.Machine

open Sys2Proof

/-! ### The targets inside a round -/

/-- Settles O41: each helper target by its cases; the bounds exclude all cases but one. -/
theorem roundTargetsFollowTheCounts : Obligations.RoundTargetsFollowTheCounts := by
  intro c wpl r i
  refine ⟨fun h => ?cache, fun h h' => ?math, fun h h' => ?plan, fun h => ⟨if_pos h, if_pos h⟩,
    fun h => ⟨if_neg (by omega), if_neg (by omega)⟩, fun h => ?next, fun h => if_neg (by omega)⟩
  case cache => rw [seqBody, if_pos (by omega), if_pos h]
  case math => rw [seqBody, if_pos (by omega), if_neg (by omega)]
  case plan => exact if_neg (by omega)
  case next => rw [seqEndround, if_pos h, BitVec.ofNat_add, BitVec.ofNat_toNat, BitVec.setWidth_eq]

/-! ### LANEHASH -/

/-- The hash of a lane (R212). -/
def laneHashOf (c : Cfg) (row : List Word) : Word := fnvFold c c.fnvOffsetBasis row

/-- The core state after LANEHASH `l` (R212). -/
def Core.hashLane (c : Cfg) (l : Nat) (k : Core) : Core :=
  { k with laneHash := k.laneHash.set l (laneHashOf c (k.mix.getD l [])) }

theorem exec_lanehash (l : BitVec 16) (s : State) :
    exec (.lanehash l) s = .next ((s.withCore (s.core.hashLane s.cfg l.toNat)).goto (succLanehash s.cfg l)) := rfl

/-- The successor of LANEHASH with the next lane in numbers (R211). -/
theorem succLanehash_eq_ofNat (c : Cfg) (l : BitVec 16) :
    succLanehash c l =
      if l.toNat + 1 < c.numLanes then ⟨0x0D#8, 0#8, BitVec.ofNat 16 (l.toNat + 1)⟩ else ⟨0x0E#8, 0#8, 0#16⟩ := by
  rw [succLanehash, BitVec.ofNat_add, BitVec.ofNat_toNat, BitVec.setWidth_eq]

/-- Settles O42: the fold is a left fold of the FNV-1a step (`fnvFold_eq_foldl`). -/
theorem lanehashFoldsOneRow : Obligations.LanehashFoldsOneRow := by
  refine fun s l => ⟨by simp [encode, fieldsWord_eq_or], ?_⟩
  rw [exec_lanehash, succLanehash_eq_ofNat, Core.hashLane, laneHashOf, fnvFold_eq_foldl]
  rfl

/-! ### DIGFOLD -/

/-- The accumulators after the hash `h` of lane `l` is folded into them, lane 0 setting all eight first (R213). -/
def foldDigest (c : Cfg) (l : BitVec 16) (h : Word) (dig : Vector Word 8) : Vector Word 8 :=
  let old := if l = 0#16 then Vector.replicate 8 c.fnvOffsetBasis else dig
  old.set (l.toNat % 8) (fnv1a c (old[l.toNat % 8]'(Nat.mod_lt _ (by decide))) h) (Nat.mod_lt _ (by decide))

/-- The core state after DIGFOLD `l` (R213). -/
def Core.foldLane (c : Cfg) (l : BitVec 16) (k : Core) : Core :=
  { k with dig := foldDigest c l (k.laneHash.getD l.toNat 0#32) k.dig }

theorem exec_digfold (l : BitVec 16) (s : State) :
    exec (.digfold l) s = .next ((s.withCore (s.core.foldLane s.cfg l)).goto (succDigfold s.cfg l)) := rfl

theorem succDigfold_eq_ofNat (c : Cfg) (l : BitVec 16) :
    succDigfold c l =
      if l.toNat + 1 < c.numLanes then ⟨0x0E#8, 0#8, BitVec.ofNat 16 (l.toNat + 1)⟩ else ⟨0x0F#8, 0#8, 0#16⟩ := by
  rw [succDigfold, BitVec.ofNat_add, BitVec.ofNat_toNat, BitVec.setWidth_eq]

/-- Accumulator by accumulator: the one of the lane is folded, the others are the old ones. -/
theorem foldDigest_getElem (c : Cfg) (l : BitVec 16) (h : Word) (dig : Vector Word 8) (j : Fin 8) :
    let old := if l.toNat = 0 then c.fnvOffsetBasis else dig[j]
    (foldDigest c l h dig)[j] = if j.val = l.toNat % 8 then fnv1a c old h else old := by
  have hlane : l = 0#16 ↔ l.toNat = 0 := (BitVec.toNat_inj (y := 0#16)).symm
  have hold : (if l = 0#16 then Vector.replicate 8 c.fnvOffsetBasis else dig)[j] =
      if l.toNat = 0 then c.fnvOffsetBasis else dig[j] := by
    by_cases h0 : l = 0#16
    · rw [if_pos h0, if_pos (hlane.1 h0)]
      simp
    · rw [if_neg h0, if_neg (h0 ∘ hlane.2)]
  simp only [← hold]
  by_cases hj : j.val = l.toNat % 8
  · simp [foldDigest, ← hj]
  · simp [foldDigest, Ne.symm hj, hj]

/-- Settles O43: accumulator by accumulator (`foldDigest_getElem`). -/
theorem digfoldFoldsIntoAccumulator : Obligations.DigfoldFoldsIntoAccumulator := by
  refine fun s l => ⟨by simp [encode, fieldsWord_eq_or], _, ?_, foldDigest_getElem s.cfg l _ s.core.dig⟩
  rw [exec_digfold, succDigfold_eq_ofNat]
  rfl

/-! ### SERIAL -/

theorem exec_serial (s : State) : exec .serial s =
    .next (s.withCore { s.core with digBytes := serialize s.cfg.digestOrder s.core.dig }).enterHalt := rfl

/-- A byte of a word in numbers. -/
theorem extractByte_toNat (w : Word) (b : Nat) : (w.extractLsb' (8 * b) 8).toNat = w.toNat / 256 ^ b % 256 := by
  rw [BitVec.extractLsb'_toNat, Nat.shiftRight_eq_div_pow, Nat.pow_mul]

/-- Byte `b` of word `j` stands at `4 j + b` (R214). -/
theorem serialize_getElem (o : DigestOrder) (dig : Vector Word 8) (j : Fin 8) (b : Fin 4) :
    (serialize o dig)[4 * j.val + b.val]'(by omega) = digestByte o dig[j] b.val := by
  have hword : (4 * j.val + b.val) / 4 = j.val := by omega
  have hbyte : (4 * j.val + b.val) % 4 = b.val := by omega
  simp [serialize, hword, hbyte]

/-- Settles O44: the byte at each place (`serialize_getElem`), in numbers (`extractByte_toNat`). -/
theorem serialWritesDigestBytes : Obligations.SerialWritesDigestBytes := by
  refine ⟨by decide, fun s => ⟨serialize s.cfg.digestOrder s.core.dig, ?outcome, fun j b => ?bytes⟩⟩
  case outcome => rw [exec_serial, State.enterHalt, State.withCore]
  case bytes =>
    rw [serialize_getElem]
    constructor
    all_goals
      intro ho
      rw [ho]
      exact extractByte_toNat _ _

/-! ### The resting operations -/

theorem exec_idle (s : State) : exec .idle s = .next (s.goto ⟨0x00#8, 0#8, 0#16⟩) := rfl

theorem exec_halt (s : State) : exec .halt s = .next s.enterHalt := rfl

theorem exec_fault (s : State) : exec .fault s = .next (s.goto ⟨0x11#8, 0#8, 0#16⟩) := rfl

/-- Settles O45: outside a computation the sequencer's turn changes nothing (`fetchSequencer_at_rest`), so neither do many. -/
theorem restingStatesRest : Obligations.RestingStatesRest := by
  refine ⟨by decide, by decide, by decide, exec_idle, exec_halt, exec_fault, fun s hs hb he n => ?_⟩
  obtain ⟨hc, -⟩ := id hs
  exact run_of_step_eq (M := Sys2Proof.core) ((step_nil hc he).trans (hs.fetchSequencer_at_rest hb)) n

/-! ### The length of the written run -/

/-- Among the first `n` iterations those below `a` count one each. -/
theorem sum_range_ite_lt (a n : Nat) : ((List.range n).map fun i => if i < a then 1 else 0).sum = min a n := by
  induction n with
  | zero => simp
  | succ n ih =>
    rw [List.range_succ, List.map_append, List.sum_append, ih, List.map_singleton, List.sum_singleton]
    split <;> omega

theorem traceBody_length (c : Cfg) (r : Nat) :
    (traceBody c r).length = c.numCacheAccesses + c.numMathOperations := by
  have hlen (p : Prop) [Decidable p] (i : Instr) : (if p then [i] else []).length = if p then 1 else 0 := by
    split <;> rfl
  simp only [traceBody, List.length_flatMap, List.length_append, hlen, List.sum_map_add, sum_range_ite_lt]
  omega

theorem traceRound_length (c : Cfg) (wpl r : Nat) :
    (traceRound c wpl r).length = 2 + c.numCacheAccesses + c.numMathOperations + 2 * wpl := by
  simp only [traceRound, List.length_append, List.length_map, List.length_range, traceBody_length, List.length_cons,
    List.length_nil]
  omega

/-- The written run has `runLength` positions (R218). -/
theorem traceHashmix_length (c : Cfg) (wpls : Nat → Nat) : (traceHashmix c wpls).length = runLength c wpls := by
  have hinit : (traceInitmix c).length = 1 + 2 * c.numLanes := by
    simp only [traceInitmix, List.length_cons, List.length_flatMap, List.length_nil, List.map_const', List.length_range,
      List.sum_replicate, smul_eq_mul]
    omega
  have hsched : (traceSchedinit c).length = 2 + (c.numRegs - 1) := by
    simp only [traceSchedinit, List.length_append, List.length_cons, List.length_nil, List.length_map, List.length_range]
  have hreduce : (traceReduce c).length = 2 * c.numLanes + 1 := by
    simp only [traceReduce, List.length_append, List.length_map, List.length_range, List.length_cons, List.length_nil]
    omega
  simp only [traceHashmix, List.length_append, List.length_flatMap, traceRound_length, hinit, hsched, hreduce, runLength,
    List.length_singleton]
  omega

/-- Settles O13: `runLength` is the formula, and for configuration T every round has 22 positions. -/
theorem writtenRunHasStatedLength : Obligations.WrittenRunHasStatedLength := by
  refine ⟨traceHashmix_length, fun c hl hr hca hmo => ?_⟩
  rw [runLength, hl, hr, hca, hmo]
  rfl

end Sys2Proof.Machine
end

section
/-! A computation whose lookups are all answered well reaches HALT (R215, R314): with the responder answering before every turn of
the sequencer, each such pair of turns lowers the count of the micro-operations left. -/

namespace Sys2Proof.Machine

open Sys2Proof Sys2Proof.Laws

/-- Every lookup is answered with an item that fits the buffer (R70, R72). -/
def State.AllAnswered (s : State) : Prop :=
  ∀ index, ∃ words, s.dataset.lookup index = .ok words ∧ words.length ≤ s.cfg.itemMax

theorem State.AllAnswered.of_inputs {s t : State} (ha : s.AllAnswered) (h : t.inputs = s.inputs) : t.AllAnswered := by
  obtain ⟨hcfg, -, -, -, hdata⟩ := (s.inputs_eq_iff t).1 h
  rw [State.AllAnswered, hdata, hcfg]
  exact ha

/-! ### The sequencer's turn -/

/-- A well answered LOOKUP does not enter the fault (R182, R272). -/
theorem State.Inv.execLookup_st {s t : State} {r : BitVec 8} (hs : s.Inv) (ha : s.AllAnswered)
    (h : execLookup r s = .next t) : t.st = s.st := by
  obtain ⟨-, -, -, -, hnone | ⟨-, -, hresp⟩, -⟩ := hs
  · cases (execLookup_of_resp_none hnone r).symm.trans h
    rfl
  · obtain ⟨words, hok, hlen⟩ := ha s.core.itemIdx
    cases (execLookup_of_item (hresp.trans (congrArg some hok)) hlen r).symm.trans h
    rfl

/-- So the computation goes on or is finished (R215). -/
theorem State.Inv.exec_busy_or_finished {s t : State} {i : Instr} (hs : s.Inv) (hb : s.st = .busy) (ha : s.AllAnswered)
    (hd : decodeS s.pc.word = .ok i) (h : exec i s = .next t) : t.st = .busy ∨ t.Finished := by
  obtain ⟨hf, -⟩ := (hs.midRun hb).operation hd
  have ht : t.Inv := hs.exec_sequencer hd h
  obtain ⟨-, -, -, ⟨-, -, hhalt, -⟩, -⟩ := ht
  have finished (hst : t.st = .done) : t.Finished := ⟨by rw [hhalt hst], hst⟩
  by_cases hst : t.st = s.st
  · exact .inl (hst.trans hb)
  · rcases onlyFiveInstructionsWriteSt i s t h hst with ⟨rfl, -⟩ | ⟨rfl, -⟩ | ⟨-, hst⟩ | ⟨-, hst⟩ | ⟨⟨r, rfl⟩, -, -⟩
    · cases hf
    · cases hf
    · exact .inr (finished hst)
    · exact .inr (finished hst)
    · exact absurd (hs.execLookup_st ha h) hst

/-- The sequencer's turn of an answered computation that does not wait. -/
theorem State.Inv.sequencer_answered {s : State} (hs : s.Inv) (hb : s.st = .busy) (ha : s.AllAnswered)
    (hwait : s.lookupOutstanding = false) :
    ∃ t, (fetchSequencer s).outcome = .next t ∧ t.Inv ∧ t.AllAnswered ∧ t.env = s.env ∧
      (t.st = .busy ∧ t.microOpsLeft < s.microOpsLeft ∨ t.Finished) := by
  obtain ⟨i, hd, hf⟩ := hs.fetchSequencer_of_busy hb
  obtain ⟨t, h⟩ := hs.exec_completes hb hd
  refine ⟨t, by rw [hf]; exact h, hs.exec_sequencer hd h, ha.of_inputs (exec_inputs h), exec_env h, ?_⟩
  exact (hs.exec_busy_or_finished hb ha hd h).imp_left fun ht => ⟨ht, hs.exec_lowers hb hd hwait h⟩

/-! ### The two turns as a step each -/

/-- After the responder's turn the sequencer does not wait. -/
theorem State.takeAnswer_not_outstanding (s : State) : s.takeAnswer.lookupOutstanding = false := by
  cases hout : s.lookupOutstanding
  case false => rw [State.takeAnswer_of_not_outstanding (by simp [hout]), hout]
  case true =>
    rw [State.takeAnswer_of_outstanding hout]
    simp [State.lookupOutstanding]

/-- The responder's turn, then the sequencer's, `n` times. -/
def answeredTurns : Nat → List Event
  | 0 => []
  | n + 1 => .answer :: .sequencer :: answeredTurns n

theorem answeredTurns_length (n : Nat) : (answeredTurns n).length = 2 * n := by
  induction n with
  | zero => rfl
  | succ n ih => rw [answeredTurns, List.length_cons, List.length_cons, ih]; omega

theorem mem_answeredTurns {e : Event} {n : Nat} (h : e ∈ answeredTurns n) : e = .sequencer ∨ e = .answer := by
  induction n with
  | zero => cases h
  | succ n ih =>
    rcases List.mem_cons.1 h with rfl | h
    · exact .inr rfl
    · exact (List.mem_cons.1 h).elim .inl ih

/-- The responder does not look at the pending inputs. -/
theorem State.takeAnswer_withEnv (s : State) (env : List Event) :
    State.takeAnswer { s with env := env } = { s.takeAnswer with env := env } := by
  by_cases hout : s.lookupOutstanding = true
  · rw [State.takeAnswer_of_outstanding hout]
    exact State.takeAnswer_of_outstanding (s := { s with env := env }) hout
  · rw [State.takeAnswer_of_not_outstanding hout]
    exact State.takeAnswer_of_not_outstanding (s := { s with env := env }) hout

section
variable (s : State)

theorem State.takeAnswer_env : s.takeAnswer.env = s.env := by
  obtain ⟨r, h⟩ := s.takeAnswer_frame
  rw [h]

theorem State.takeAnswer_st : s.takeAnswer.st = s.st := by
  obtain ⟨r, h⟩ := s.takeAnswer_frame
  rw [h]

theorem State.takeAnswer_inputs : s.takeAnswer.inputs = s.inputs := by
  obtain ⟨r, h⟩ := s.takeAnswer_frame
  rw [h]
  rfl

theorem State.takeAnswer_microOpsLeft : s.takeAnswer.microOpsLeft = s.microOpsLeft := by
  obtain ⟨r, h⟩ := s.takeAnswer_frame
  rw [h]
  rfl

end

/-- The pair of turns is the sequencer's turn of a state that does not wait. -/
theorem run_answeredTurn {s t : State} {rest : List Event} (hc : s.cfg.wf = true)
    (he : s.env = .answer :: .sequencer :: rest)
    (h : (fetchSequencer (State.takeAnswer { s with env := rest })).outcome = .next t) :
    Host.Core.run Sys2Proof.core 2 s = .next t := by
  have hanswer : step s = .next { s.takeAnswer with env := .sequencer :: rest } := by
    rw [step_answer hc he, State.takeAnswer_withEnv]
  have hcfg : s.takeAnswer.cfg = s.cfg := ((State.inputs_eq_iff _ _).1 s.takeAnswer_inputs).1
  have hturn : step { s.takeAnswer with env := .sequencer :: rest } = .next t := by
    rw [State.takeAnswer_withEnv] at h
    exact (step_sequencer (hcfg ▸ hc) rfl).trans h
  exact run_add (run_one hanswer) (run_one hturn)

section
variable {s : State} (hs : s.Inv)
include hs

/-- A pair of turns of an answered computation. -/
theorem State.Inv.run_answered (hb : s.st = .busy) (ha : s.AllAnswered) {rest : List Event}
    (he : s.env = .answer :: .sequencer :: rest) :
    ∃ t, Host.Core.run Sys2Proof.core 2 s = .next t ∧ t.Inv ∧ t.AllAnswered ∧ t.env = rest ∧
      (t.st = .busy ∧ t.microOpsLeft < s.microOpsLeft ∨ t.Finished) := by
  obtain ⟨hc, -⟩ := id hs
  have hanswered := (hs.with_free rest s.werr s.rdata s.freeCount).takeAnswer
  obtain ⟨t, hrun, ht, hat, het, hnext⟩ := hanswered.sequencer_answered ((State.takeAnswer_st _).trans hb)
    (ha.of_inputs (State.takeAnswer_inputs _)) (State.takeAnswer_not_outstanding _)
  rw [State.takeAnswer_microOpsLeft] at hnext
  exact ⟨t, run_answeredTurn hc he hrun, ht, hat, het.trans (State.takeAnswer_env _), hnext⟩

/-- A pair of turns of a finished computation changes nothing of it. -/
theorem State.Inv.run_finished (hf : s.Finished) {rest : List Event} (he : s.env = .answer :: .sequencer :: rest) :
    Host.Core.run Sys2Proof.core 2 s = .next { s with env := rest } := by
  obtain ⟨hc, -⟩ := id hs
  obtain ⟨-, hst⟩ := hf
  have hb : s.st ≠ .busy := by simp [hst]
  have hout : ¬ State.lookupOutstanding { s with env := rest } = true :=
    fun h => hb ((State.lookupOutstanding_iff _).1 h).1
  refine run_answeredTurn hc he ?_
  rw [State.takeAnswer_of_not_outstanding hout]
  exact (hs.with_free rest s.werr s.rdata s.freeCount).fetchSequencer_at_rest hb

end

/-- With as many pairs of turns as micro-operations can follow, the computation is finished. -/
theorem State.Inv.run_answeredTurns {s : State} {n : Nat} (hs : s.Inv) (ha : s.AllAnswered)
    (hn : s.st = .busy ∧ s.microOpsLeft ≤ n ∨ s.Finished) (he : s.env = answeredTurns n) :
    ∃ t, Host.Core.run Sys2Proof.core (2 * n) s = .next t ∧ t.Finished := by
  induction n generalizing s with
  | zero =>
    obtain ⟨hb, hleft⟩ | hf := hn
    · obtain ⟨hc, -⟩ := id hs
      exact absurd hleft ((hs.midRun hb).microOpsLeft_pos hc).not_ge
    · exact ⟨s, rfl, hf⟩
  | succ n ih =>
    rw [Nat.mul_succ, Nat.add_comm]
    obtain ⟨hb, hleft⟩ | hf := hn
    · obtain ⟨t, hrun, ht, hat, het, hnext⟩ := hs.run_answered hb ha he
      obtain ⟨u, hu, hfin⟩ := ih ht hat (hnext.imp_left fun ⟨hbt, hlt⟩ => ⟨hbt, by omega⟩) het
      exact ⟨u, run_add hrun hu, hfin⟩
    · obtain ⟨u, hu, hfin⟩ := ih (s := { s with env := answeredTurns n }) hs ha (.inr hf) rfl
      exact ⟨u, run_add (hs.run_finished hf he) hu, hfin⟩

/-- Settles O10: the turns are `answeredTurns`, as many pairs as micro-operations can follow. -/
theorem answeredRunReachesHalt : Obligations.AnsweredRunReachesHalt := by
  intro s hs hb ha
  obtain ⟨t, hrun, hf⟩ := State.Inv.run_answeredTurns (s := { s with env := answeredTurns s.microOpsLeft }) hs ha
    (.inl ⟨hb, le_rfl⟩) rfl
  rw [← answeredTurns_length] at hrun
  exact ⟨_, t, fun _ => mem_answeredTurns, hrun, hf⟩

end Sys2Proof.Machine
end

section
/-! What two computations with the same inputs agree on (R219, R46): at each position the elements of core state that a
micro-operation from there on reads before it writes them. Every micro-operation keeps the agreement, so no other value is
ever read. -/

namespace Sys2Proof.Machine

open Sys2Proof Sys2Proof.Laws

/-! ### Lists written in ascending order -/

/-- The first `n + 1` entries after entry `n` is written. -/
theorem take_succ_set {α : Type} {xs : List α} {n : Nat} (hn : n < xs.length) (v : α) :
    (xs.set n v).take (n + 1) = xs.take n ++ [v] := by
  rw [List.take_add_one, List.take_set_of_le le_rfl, List.getElem?_set_self hn, Option.toList_some]

/-- A common beginning grows by an entry that is written in both lists. -/
theorem take_set_congr {α : Type} {xs ys : List α} {n : Nat} (h : ys.take n = xs.take n) (hx : n < xs.length)
    (hy : n < ys.length) (v : α) : (ys.set n v).take (n + 1) = (xs.set n v).take (n + 1) := by
  rw [take_succ_set hx, take_succ_set hy, h]

/-- A common beginning as long as both lists is the whole. -/
theorem eq_of_take_eq {α : Type} {xs ys : List α} {n : Nat} (h : ys.take n = xs.take n) (hx : xs.length ≤ n)
    (hy : ys.length ≤ n) : ys = xs := by
  rwa [List.take_of_length_le hx, List.take_of_length_le hy] at h

/-- Lists read the same inside a common beginning. -/
theorem getD_of_take_eq {α : Type} {xs ys : List α} {m n : Nat} (h : ys.take n = xs.take n) (hm : m < n) (d : α) :
    ys.getD m d = xs.getD m d := by
  have hget := congrArg (fun zs => zs[m]?) h
  simp only [List.getElem?_take_of_lt hm] at hget
  simp only [List.getD_eq_getElem?_getD, hget]

theorem take_of_take_eq {α : Type} {xs ys : List α} {m n : Nat} (h : ys.take n = xs.take n) (hm : m ≤ n) :
    ys.take m = xs.take m := by
  have hmin := congrArg (List.take m) h
  rwa [List.take_take, List.take_take, Nat.min_eq_left hm] at hmin

/-! ### What is agreed on -/

/-- What a round draws, reads and writes: the lane registers, the schedule, the item and the share. -/
structure SameRound (k k' : Core) : Prop where
  mix : k'.mix = k.mix
  schedule : k'.schedule = k.schedule
  item : k'.item = k.item
  wpl : k'.wpl = k.wpl

/-- The first `n` entries of the plan of the dataset merge. -/
structure SamePlan (n : Nat) (k k' : Core) : Prop where
  pdst : k'.pdst.take n = k.pdst.take n
  psel : k'.psel.take n = k.psel.take n

/-- The folded seed halves and the lanes filled so far. -/
structure SameLanes (n : Nat) (k k' : Core) : Prop where
  zb : k'.zb = k.zb
  wb : k'.wb = k.wb
  mix : k'.mix.take n = k.mix.take n

/-- The agreement at a position: what the micro-operation there, or one after it, reads before it is written. -/
def Agrees (p : Pc) (k k' : Core) : Prop :=
  match p.op.toNat with
  | 0x02 => SameLanes p.idx.toNat k k'
  | 0x03 => SameLanes p.idx.toNat k k' ∧ k'.gl = k.gl
  | 0x04 => k'.mix = k.mix
  | 0x05 => k'.mix = k.mix ∧ k'.epoch = k.epoch
  | 0x06 | 0x07 => k'.mix = k.mix ∧ k'.schedule = k.schedule
  | 0x08 => k'.mix = k.mix ∧ k'.schedule = k.schedule ∧ k'.itemIdx = k.itemIdx
  | 0x09 | 0x0A => SameRound k k'
  | 0x0B => SameRound k k' ∧ SamePlan p.idx.toNat k k'
  | 0x0C => SameRound k k' ∧ SamePlan k.wpl k k'
  | 0x0D => k'.mix = k.mix ∧ k'.laneHash.take p.idx.toNat = k.laneHash.take p.idx.toNat
  | 0x0E => k'.laneHash = k.laneHash ∧ (p.idx ≠ 0#16 → k'.dig = k.dig)
  | 0x0F => k'.dig = k.dig
  | _ => True

theorem Agrees.itemIdx {p : Pc} {k k' : Core} (h : Agrees p k k') (hop : p.op = 0x08#8) : k'.itemIdx = k.itemIdx := by
  obtain ⟨op, r, idx⟩ := p
  obtain rfl : op = 0x08#8 := hop
  exact h.2.2

/-! ### The targets inside a round -/

section
variable {k k' : Core} {n : Nat}

theorem SamePlan.mono {m : Nat} (h : SamePlan n k k') (hm : m ≤ n) : SamePlan m k k' :=
  ⟨take_of_take_eq h.pdst hm, take_of_take_eq h.psel hm⟩

theorem SamePlan.zero : SamePlan 0 k k' := ⟨by simp, by simp⟩

theorem agrees_seqEndround (hm : k'.mix = k.mix) (hs : k'.schedule = k.schedule) (r : BitVec 8) :
    Agrees (seqEndround r) k k' := by
  rcases seqEndround_cases r with ⟨-, e⟩ | ⟨-, e⟩ <;> rw [e]
  · exact ⟨hm, hs⟩
  · exact ⟨hm, by simp⟩

/-- The helper targets of R211 go on inside the round, or end it. -/
theorem agrees_seqDmerge {wpl : Nat} (h : SameRound k k') (hw : k.wpl = wpl) (hp : SamePlan wpl k k') (r : BitVec 8)
    (i : Nat) : Agrees (seqDmerge wpl r i) k k' := by
  subst hw
  rcases seqDmerge_cases k.wpl r i with ⟨-, e⟩ | ⟨-, e⟩ <;> rw [e]
  · exact ⟨h, hp⟩
  · exact agrees_seqEndround h.mix h.schedule r

theorem agrees_seqPlan {wpl : Nat} (h : SameRound k k') (hw : k.wpl = wpl) {i : Nat} (hp : SamePlan i k k') (r : BitVec 8) :
    Agrees (seqPlan wpl r i) k k' := by
  rcases seqPlan_cases wpl r i with ⟨-, e⟩ | ⟨hi, e⟩ <;> rw [e]
  · exact ⟨h, hp.mono (by rw [BitVec.toNat_ofNat]; exact Nat.mod_le _ _)⟩
  · exact agrees_seqDmerge h hw (hp.mono hi) r 0

theorem agrees_seqBody {wpl : Nat} (h : SameRound k k') (hw : k.wpl = wpl) (c : Cfg) (r : BitVec 8) (i : Nat) :
    Agrees (seqBody c wpl r i) k k' := by
  rcases seqBody_cases c wpl r i with ⟨-, e⟩ | ⟨-, -, e⟩ | ⟨-, -, e⟩ <;> rw [e]
  · exact h
  · exact h
  · exact agrees_seqPlan h hw SamePlan.zero r

theorem agrees_succCacheop {wpl : Nat} (h : SameRound k k') (hw : k.wpl = wpl) (c : Cfg) (r : BitVec 8) (i : BitVec 16) :
    Agrees (succCacheop c wpl r i) k k' := by
  unfold succCacheop
  split
  · exact h
  · exact agrees_seqBody h hw c r _

end

/-! ### The operations before and after the rounds -/

section
variable {c : Cfg} {k k' : Core} {l : BitVec 16}

theorem agrees_foldSeed (c : Cfg) (seed : U64) (k k' : Core) :
    Agrees succMixseed (k.foldSeed c seed) (k'.foldSeed c seed) := ⟨rfl, rfl, by simp [succMixseed]⟩

theorem agrees_seedLane (h : SameLanes l.toNat k k') :
    Agrees (succLaneseed l) (k.seedLane c l.toNat) (k'.seedLane c l.toNat) :=
  ⟨⟨h.zb, h.wb, h.mix⟩, by rw [Core.seedLane, Core.seedLane, h.zb, h.wb]⟩

theorem agrees_drawRow (hc : c.wf = true) (h : SameLanes l.toNat k k') (hgl : k'.gl = k.gl) (hl : l.toNat < c.numLanes)
    (hm : k.mix.length = c.numLanes) (hm' : k'.mix.length = c.numLanes) :
    Agrees (succLanefill c l) (k.drawRow c l.toNat) (k'.drawRow c l.toNat) := by
  have hmix : (k'.drawRow c l.toNat).mix.take (l.toNat + 1) = (k.drawRow c l.toNat).mix.take (l.toNat + 1) := by
    rw [Core.drawRow, Core.drawRow, hgl]
    exact take_set_congr h.mix (hm ▸ hl) (hm' ▸ hl) _
  unfold succLanefill
  split
  case isTrue hnext => exact ⟨h.zb, h.wb, by rwa [nextLane_toNat hc hnext]⟩
  case isFalse hlast => exact eq_of_take_eq hmix (by simp; omega) (by simp; omega)

theorem agrees_hashLane (hc : c.wf = true) (hmix : k'.mix = k.mix)
    (h : k'.laneHash.take l.toNat = k.laneHash.take l.toNat) (hl : l.toNat < c.numLanes)
    (hk : k.laneHash.length = c.numLanes) (hk' : k'.laneHash.length = c.numLanes) :
    Agrees (succLanehash c l) (k.hashLane c l.toNat) (k'.hashLane c l.toNat) := by
  have hhash : (k'.hashLane c l.toNat).laneHash.take (l.toNat + 1) = (k.hashLane c l.toNat).laneHash.take (l.toNat + 1) := by
    rw [Core.hashLane, Core.hashLane, hmix]
    exact take_set_congr h (hk ▸ hl) (hk' ▸ hl) _
  unfold succLanehash
  split
  case isTrue hnext => exact ⟨hmix, by rwa [nextLane_toNat hc hnext]⟩
  case isFalse hlast =>
    exact ⟨eq_of_take_eq hhash (by simp [Core.hashLane]; omega) (by simp [Core.hashLane]; omega), fun h => absurd rfl h⟩

/-- DIGFOLD of lane 0 does not read the accumulators (R213). -/
theorem foldDigest_congr {h : Word} {dig dig' : Vector Word 8} (hd : l ≠ 0#16 → dig' = dig) :
    foldDigest c l h dig' = foldDigest c l h dig := by
  by_cases h0 : l = 0#16
  · simp only [foldDigest, if_pos h0]
  · rw [hd h0]

theorem agrees_foldLane (hh : k'.laneHash = k.laneHash) (hd : l ≠ 0#16 → k'.dig = k.dig) :
    Agrees (succDigfold c l) (k.foldLane c l) (k'.foldLane c l) := by
  have hdig : (k'.foldLane c l).dig = (k.foldLane c l).dig := by
    rw [Core.foldLane, Core.foldLane, hh]
    exact foldDigest_congr hd
  unfold succDigfold
  split
  · exact ⟨hh, fun _ => hdig⟩
  · exact hdig

theorem agrees_seedSchedule (hm : k'.mix = k.mix) (he : k'.epoch = k.epoch) :
    Agrees (succSchseed c) (k.seedSchedule c) (k'.seedSchedule c) := ⟨hm, Core.seedSchedule_congr c he⟩

theorem agrees_exchange (hm : k'.mix = k.mix) (hs : k'.schedule = k.schedule) (i : BitVec 16) :
    Agrees (succFyswap i) (k.exchange c i.toNat) (k'.exchange c i.toNat) := by
  unfold succFyswap
  split <;> exact ⟨hm, Core.exchange_congr c _ hs⟩

end

end Sys2Proof.Machine
end

section
/-! Two computations with the same inputs go the same way (R219): a relation between their states that every turn of the sequencer
and of the responder keeps. -/

namespace Sys2Proof.Machine

open Sys2Proof Sys2Proof.Laws

/-- Two states of the invariant with the same inputs at the same point of a computation: they agree on what the computation
reads from there on, and when it is finished on the digest. -/
structure Twins (s s' : State) : Prop where
  inv : s.Inv
  inv' : s'.Inv
  cfg : s'.cfg = s.cfg
  seed : s'.seed = s.seed
  height : s'.height = s.height
  cache : s'.cache = s.cache
  dataset : s'.dataset = s.dataset
  pc : s'.pc = s.pc
  st : s'.st = s.st
  resp : s'.resp = s.resp
  errcode : s'.errcode = s.errcode
  errinfo : s'.errinfo = s.errinfo
  agrees : s.st = .busy → Agrees s.pc s.core s'.core
  digest : s.st = .done → s'.core.dig = s.core.dig ∧ s'.core.digBytes = s.core.digBytes

/-- Two outcomes that go on at the same position with core states that agree there. -/
def AgreeAfter (o o' : Result) : Prop :=
  ∀ t t', o = .next t → o' = .next t' → t'.pc = t.pc ∧ Agrees t.pc t.core t'.core

theorem agreeAfter_next (s s' : State) {k k' : Core} {p p' : Pc} (hp : p' = p) (h : Agrees p k k') :
    AgreeAfter (.next ((s.withCore k).goto p)) (.next ((s'.withCore k').goto p')) := by
  rintro t t' ht ht'
  cases ht
  cases ht'
  exact ⟨hp, h⟩

/-! ### The operations of a round -/

theorem Core.schedule_eq_iff (k k' : Core) : k'.schedule = k.schedule ↔
    k'.gs = k.gs ∧ k'.dstSeq = k.dstSeq ∧ k'.srcSeq = k.srcSeq ∧ k'.dstCnt = k.dstCnt ∧ k'.srcCnt = k.srcCnt := by
  simp only [Core.schedule, Prod.mk.injEq]

/-- A cache word that holds a value is read as that value, whatever the counter of free values is (R47, R62). -/
theorem cacheWord_congr {s s' : State} (hin : s.inputsHeld = true) (hc : s'.cache = s.cache) {k : Nat}
    (hk : k < s.cfg.cacheSize) : s'.cacheWord k = s.cacheWord k := by
  have hheld : (s.cacheHeld k).isSome = true := by
    simp only [State.inputsHeld, Bool.and_eq_true, List.all_eq_true] at hin
    exact hin.2 k (List.mem_range.2 hk)
  obtain ⟨v, hv⟩ := Option.isSome_iff_exists.1 hheld
  have hv' : s'.cacheHeld k = some v := by rw [State.cacheHeld, hc]; exact hv
  rw [State.cacheWord, State.cacheWord, hv, hv', Option.getD_some, Option.getD_some]

/-- The cursor of NDST moves the same way. -/
theorem SameRound.nextDst {k k' : Core} (h : SameRound k k') (c : Cfg) :
    (nextDst c k').1 = (nextDst c k).1 ∧ SameRound (nextDst c k).2 (nextDst c k').2 := by
  obtain ⟨hgs, hds, hss, hdc, hsc⟩ := (Core.schedule_eq_iff _ _).1 h.schedule
  refine ⟨by simp only [Machine.nextDst, hds, hdc], h.mix, (Core.schedule_eq_iff _ _).2 ?_, h.item, h.wpl⟩
  exact ⟨hgs, hds, hss, congrArg (· + 1#32) hdc, hsc⟩

/-- The core state after a write in every lane, with the generator and the cursors as the draws for it left them. -/
def Core.writeLanes (k : Core) (w : LaneWrite) (gs : Kiss) (dstCnt srcCnt : Word) : Core :=
  { k with mix := w.run k.mix, gs := gs, dstCnt := dstCnt, srcCnt := srcCnt }

theorem SameRound.writeLanes {k k' : Core} (h : SameRound k k') (w : LaneWrite) {gs gs' : Kiss} {dc dc' sc sc' : Word}
    (hgs : gs' = gs) (hdc : dc' = dc) (hsc : sc' = sc) :
    SameRound (k.writeLanes w gs dc sc) (k'.writeLanes w gs' dc' sc') := by
  obtain ⟨-, hds, hss, -, -⟩ := (Core.schedule_eq_iff _ _).1 h.schedule
  exact ⟨congrArg w.run h.mix, (Core.schedule_eq_iff _ _).2 ⟨hgs, hds, hss, hdc, hsc⟩, h.item, h.wpl⟩

/-- A plan entry written in both (R187). -/
theorem agrees_planEntry {c : Cfg} {k k' : Core} {i : BitVec 16} (h : SameRound k k') (hp : SamePlan i.toNat k k')
    (hk : k.Shape c) (hk' : k'.Shape c) (hi : i.toNat < c.itemMax / c.numLanes) (dst : Nat) (r : BitVec 8) :
    Agrees (succDagplan k.wpl r i) (k.planEntry c i.toNat dst) (k'.planEntry c i.toNat dst) := by
  obtain ⟨hgs, hrest⟩ := (Core.schedule_eq_iff _ _).1 h.schedule
  obtain ⟨-, -, -, -, -, -, -, -, -, hpd, -, hps, -⟩ := hk
  obtain ⟨-, -, -, -, -, -, -, -, -, hpd', -, hps', -⟩ := hk'
  have hround : SameRound (k.planEntry c i.toNat dst) (k'.planEntry c i.toNat dst) :=
    ⟨h.mix, (Core.schedule_eq_iff _ _).2 ⟨congrArg (kissAdvance c) hgs, hrest⟩, h.item, h.wpl⟩
  refine agrees_seqPlan hround rfl ⟨take_set_congr hp.pdst (hpd ▸ hi) (hpd' ▸ hi) _, ?_⟩ r
  rw [Core.planEntry, Core.planEntry, hgs]
  exact take_set_congr hp.psel (hps ▸ hi) (hps' ▸ hi) _

section
variable {s s' : State} (h : Twins s s')
include h

theorem Twins.wf : s.cfg.wf = true ∧ s'.cfg.wf = true := by
  obtain ⟨hc, -⟩ := h.inv
  exact ⟨hc, h.cfg ▸ hc⟩

/-- What is agreed on where the computation stands. -/
theorem Twins.agrees_at (hb : s.st = .busy) {p : Pc} (hp : s.pc = p) : Agrees p s.core s'.core := hp ▸ h.agrees hb

theorem Twins.shape : s.core.Shape s.cfg ∧ s'.core.Shape s.cfg := by
  obtain ⟨-, hk, -⟩ := h.inv
  obtain ⟨-, hk', -⟩ := h.inv'
  exact ⟨hk, h.cfg ▸ hk'⟩

theorem Twins.cacheopWrite_eq (hb : s.st = .busy) (ha : SameRound s.core s'.core) : cacheopWrite s' = cacheopWrite s := by
  obtain ⟨-, -, -, -, -, -, hin, -⟩ := h.inv
  obtain ⟨hgs, hds, hss, hdc, hsc⟩ := (Core.schedule_eq_iff _ _).1 ha.schedule
  have hread (v : Word) := cacheWord_congr (hin hb) h.cache (cacheOffset_lt h.wf.1 v)
  simp only [cacheopWrite, h.cfg, nextDst, nextSrc, drawGs, hgs, hds, hss, hdc, hsc, hread]

theorem Twins.exec_cacheop (hb : s.st = .busy) (ha : SameRound s.core s'.core) (r : BitVec 8) (i : BitVec 16) :
    AgreeAfter (exec (.cacheop r i) s) (exec (.cacheop r i) s') := by
  obtain ⟨hgs, hds, hss, hdc, hsc⟩ := (Core.schedule_eq_iff _ _).1 ha.schedule
  rw [Machine.exec_cacheop, if_pos (cacheop_guard h.wf.1 _ _), Machine.exec_cacheop, h.cfg,
    if_pos (cacheop_guard h.wf.1 _ _), h.cacheopWrite_eq hb ha]
  exact agreeAfter_next s s' (by rw [ha.wpl]) (agrees_succCacheop (ha.writeLanes (cacheopWrite s)
    (congrArg (kissAdvance s.cfg) hgs) (congrArg (· + 1#32) hdc) (congrArg (· + 1#32) hsc)) rfl s.cfg r i)

theorem Twins.exec_mathop (ha : SameRound s.core s'.core) (r : BitVec 8) (i : BitVec 16) :
    AgreeAfter (exec (.mathop r i) s) (exec (.mathop r i) s') := by
  obtain ⟨hgs, hds, hss, hdc, hsc⟩ := (Core.schedule_eq_iff _ _).1 ha.schedule
  have hwrite : mathopWrite s' = mathopWrite s := by simp only [mathopWrite, h.cfg, nextDst, hgs, hds, hdc]
  rw [Machine.exec_mathop, Machine.exec_mathop, h.cfg, hwrite]
  exact agreeAfter_next s s' (by rw [ha.wpl]) (agrees_seqBody (ha.writeLanes (mathopWrite s)
    (by rw [hgs]) (congrArg (· + 1#32) hdc) hsc) rfl s.cfg r _)

theorem Twins.exec_dagplan (ha : SameRound s.core s'.core) {i : BitVec 16} (hp : SamePlan i.toNat s.core s'.core)
    (hi : i.toNat < s.core.wpl) (r : BitVec 8) : AgreeAfter (exec (.dagplan r i) s) (exec (.dagplan r i) s') := by
  obtain ⟨hk, hk'⟩ := h.shape
  have hi' : i.toNat < s.cfg.itemMax / s.cfg.numLanes := hi.trans_le hk.wpl_le
  by_cases h0 : i = 0#16
  · subst h0
    rw [exec_dagplan_zero, exec_dagplan_zero, h.cfg, ha.wpl]
    exact agreeAfter_next s s' rfl (agrees_planEntry ha hp hk hk' hi' 0 r)
  · obtain ⟨hdst, hnext⟩ := ha.nextDst s.cfg
    rw [exec_dagplan_of_ne h0, exec_dagplan_of_ne h0, h.cfg, ha.wpl, hdst]
    exact agreeAfter_next s s' rfl (agrees_planEntry hnext ⟨hp.pdst, hp.psel⟩ hk hk' hi' _ r)

theorem Twins.dagmergeWrite_eq (ha : SameRound s.core s'.core) (hp : SamePlan s.core.wpl s.core s'.core) {i : BitVec 16}
    (hi : i.toNat < s.core.wpl) (r : BitVec 8) : dagmergeWrite r i s' = dagmergeWrite r i s := by
  obtain ⟨-, -, -, -, -, -, hlen, -, hwpl, -⟩ := h.shape.1
  have hn : 1 ≤ s.cfg.numLanes := ((Cfg.wf_iff _).1 h.wf.1).1
  have hitem : s.cfg.numLanes * s.core.wpl ≤ s.core.item.length := by
    rw [hlen, hwpl]
    exact Nat.mul_div_le _ _
  have hword (l : Nat) (row : List Word) : (dagmergeWrite r i s').word l row = (dagmergeWrite r i s).word l row := by
    have hitem' : s'.cfg.numLanes * s'.core.wpl ≤ s'.core.item.length := by rwa [h.cfg, ha.wpl, ha.item]
    rw [dagmergeWrite_word hn hi hitem, dagmergeWrite_word (h.cfg ▸ hn) (ha.wpl ▸ hi) hitem', h.cfg,
      ha.wpl, ha.item, getD_of_take_eq hp.pdst hi, getD_of_take_eq hp.psel hi]
  have hreg : (dagmergeWrite r i s').reg = (dagmergeWrite r i s).reg := getD_of_take_eq hp.pdst hi 0
  rw [LaneWrite.mk.injEq]
  exact ⟨hreg, funext₂ hword⟩

theorem Twins.exec_dagmerge (ha : SameRound s.core s'.core) (hp : SamePlan s.core.wpl s.core s'.core) {i : BitVec 16}
    (hi : i.toNat < s.core.wpl) (r : BitVec 8) : AgreeAfter (exec (.dagmerge r i) s) (exec (.dagmerge r i) s') := by
  obtain ⟨hgs, -, -, hdc, hsc⟩ := (Core.schedule_eq_iff _ _).1 ha.schedule
  have hguard := dagmerge_guard ((Cfg.wf_iff _).1 h.wf.1).1 hi h.shape.1.lanes_wpl_le s.core.mix r.toNat
  rw [Machine.exec_dagmerge, if_pos hguard, Machine.exec_dagmerge, h.cfg, ha.wpl, congrArg List.length ha.mix,
    if_pos hguard, h.dagmergeWrite_eq ha hp hi]
  exact agreeAfter_next s s' rfl (agrees_seqDmerge (ha.writeLanes (dagmergeWrite r i s) hgs hdc hsc) rfl
    ⟨hp.pdst, hp.psel⟩ r _)

/-- Every micro-operation of a computation but LOOKUP and SERIAL keeps the agreement. -/
theorem Twins.exec_agrees (hb : s.st = .busy) {i : Instr} (hd : decodeS s.pc.word = .ok i) (hlookup : ∀ r, i ≠ .lookup r)
    (hserial : i ≠ .serial) : AgreeAfter (exec i s) (exec i s') := by
  have hm := h.inv.midRun hb
  obtain ⟨hr, he⟩ := hm.legal hd
  obtain ⟨⟨hmix, -, -, -, -, -, -, -, -, -, -, -, hhash⟩, hmix', -, -, -, -, -, -, -, -, -, -, -, hhash'⟩ := h.shape
  have hop := hm.operation hd
  have ha {p : Pc} (hp : encode i = p.word) : Agrees p s.core s'.core := h.agrees_at hb (Pc.eq_of_decode hd hp)
  cases i
  case lookup r => exact absurd rfl (hlookup r)
  case serial => exact absurd rfl hserial
  case mixseed =>
    rw [exec_mixseed, exec_mixseed, h.cfg, h.seed]
    exact agreeAfter_next s s' rfl (agrees_foldSeed _ _ _ _)
  case laneseed l =>
    have hl : SameLanes l.toNat s.core s'.core := ha (p := ⟨0x02#8, 0#8, l⟩) rfl
    rw [exec_laneseed, exec_laneseed, h.cfg]
    exact agreeAfter_next s s' rfl (agrees_seedLane hl)
  case lanefill l =>
    obtain ⟨hl, hgl⟩ : SameLanes l.toNat s.core s'.core ∧ _ := ha (p := ⟨0x03#8, 0#8, l⟩) rfl
    rw [exec_lanefill, exec_lanefill, h.cfg]
    exact agreeAfter_next s s' rfl (agrees_drawRow h.wf.1 hl hgl (of_decide_eq_true hr) hmix hmix')
  case epoch =>
    have hk : s'.core.mix = s.core.mix := ha (p := ⟨0x04#8, 0#8, 0#16⟩) rfl
    rw [exec_epoch, exec_epoch, h.cfg, h.height]
    exact agreeAfter_next s s' rfl ⟨hk, rfl⟩
  case schseed =>
    obtain ⟨hk, hepoch⟩ : s'.core.mix = s.core.mix ∧ _ := ha (p := ⟨0x05#8, 0#8, 0#16⟩) rfl
    rw [exec_schseed, exec_schseed, h.cfg]
    exact agreeAfter_next s s' rfl (agrees_seedSchedule hk hepoch)
  case fyswap n =>
    obtain ⟨hk, hs⟩ : s'.core.mix = s.core.mix ∧ _ := ha (p := ⟨0x06#8, 0#8, n⟩) rfl
    rw [exec_fyswap, exec_fyswap, h.cfg]
    exact agreeAfter_next s s' rfl (agrees_exchange hk hs n)
  case itemsel r =>
    obtain ⟨hk, hs⟩ : s'.core.mix = s.core.mix ∧ _ := ha (p := ⟨0x07#8, r, 0#16⟩) rfl
    rw [exec_itemsel, exec_itemsel, h.cfg]
    exact agreeAfter_next s s' rfl ⟨hk, hs, by rw [hk]⟩
  case cacheop r n => exact h.exec_cacheop hb (ha (p := ⟨0x09#8, r, n⟩) rfl) r n
  case mathop r n => exact h.exec_mathop (ha (p := ⟨0x0A#8, r, n⟩) rfl) r n
  case dagplan r n =>
    obtain ⟨hround, hplan⟩ : SameRound s.core s'.core ∧ _ := ha (p := ⟨0x0B#8, r, n⟩) rfl
    exact h.exec_dagplan hround hplan (of_decide_eq_true he) r
  case dagmerge r n =>
    obtain ⟨hround, hplan⟩ : SameRound s.core s'.core ∧ _ := ha (p := ⟨0x0C#8, r, n⟩) rfl
    exact h.exec_dagmerge hround hplan (of_decide_eq_true he) r
  case lanehash l =>
    obtain ⟨hk, hl⟩ : s'.core.mix = s.core.mix ∧ _ := ha (p := ⟨0x0D#8, 0#8, l⟩) rfl
    rw [exec_lanehash, exec_lanehash, h.cfg]
    exact agreeAfter_next s s' rfl (agrees_hashLane h.wf.1 hk hl (of_decide_eq_true hr) hhash hhash')
  case digfold l =>
    obtain ⟨hl, hdig⟩ : s'.core.laneHash = s.core.laneHash ∧ _ := ha (p := ⟨0x0E#8, 0#8, l⟩) rfl
    rw [exec_digfold, exec_digfold, h.cfg]
    exact agreeAfter_next s s' rfl (agrees_foldLane hl hdig)
  -- no other operation has the format and a number of a computation
  all_goals simp [Instr.format, OpCode.number] at hop

/-! ### The turns -/

/-- The states after a micro-operation that moves both on. -/
theorem Twins.advance (hb : s.st = .busy) {k k' : Core} {p p' : Pc} (hi : ((s.withCore k).goto p).Inv)
    (hi' : ((s'.withCore k').goto p').Inv) (hp : p' = p) (ha : Agrees p k k') :
    Twins ((s.withCore k).goto p) ((s'.withCore k').goto p') :=
  { h with
    inv := hi, inv' := hi', pc := hp, agrees := fun _ => ha
    digest := fun hd => absurd (hb.symm.trans hd) (by decide) }

/-- The same item taken by both (R182). -/
theorem Twins.takeItem (hb : s.st = .busy) (hmix : s'.core.mix = s.core.mix)
    (hsched : s'.core.schedule = s.core.schedule) {words : List Word} {r : BitVec 8}
    (hi : ((s.takeItem words).goto (succLookup s.cfg (words.length / s.cfg.numLanes) r)).Inv)
    (hi' : ((s'.takeItem words).goto (succLookup s.cfg (words.length / s.cfg.numLanes) r)).Inv) :
    Twins ((s.takeItem words).goto (succLookup s.cfg (words.length / s.cfg.numLanes) r))
      ((s'.takeItem words).goto (succLookup s.cfg (words.length / s.cfg.numLanes) r)) := by
  have hshare : words.length / s'.cfg.numLanes = words.length / s.cfg.numLanes := by rw [h.cfg]
  have hround : SameRound (s.takeItem words).core (s'.takeItem words).core := ⟨hmix, hsched, rfl, hshare⟩
  exact { h with
    inv := hi, inv' := hi', pc := rfl, resp := rfl
    agrees := fun _ => agrees_seqBody hround rfl s.cfg r 0
    digest := fun hd => absurd (hb.symm.trans hd) (by decide) }

/-- The same exception taken by both (R274). -/
theorem Twins.lookupFault {cause : BitVec 4} {index : Word} (hi : (s.lookupFault cause index).Inv)
    (hi' : (s'.lookupFault cause index).Inv) : Twins (s.lookupFault cause index) (s'.lookupFault cause index) :=
  { h with
    inv := hi, inv' := hi', pc := rfl, st := rfl, resp := rfl, errcode := rfl, errinfo := rfl
    agrees := nofun, digest := nofun }

/-- LOOKUP holds in both, takes the same item in both, or faults in both with the same cause and index (R182, R274). -/
theorem Twins.exec_lookup (hb : s.st = .busy) {r : BitVec 8} (hpc : s.pc = ⟨0x08#8, r, 0#16⟩) {t t' : State} (hi : t.Inv)
    (hi' : t'.Inv) (ht : execLookup r s = .next t) (ht' : execLookup r s' = .next t') : Twins t t' := by
  obtain ⟨hmix, hsched, hidx⟩ : s'.core.mix = s.core.mix ∧ s'.core.schedule = s.core.schedule ∧ _ := h.agrees_at hb hpc
  rw [execLookup] at ht
  rw [execLookup, h.resp, hidx] at ht'
  cases hresp : s.resp with
  | none =>
    rw [hresp] at ht ht'
    cases ht
    cases ht'
    exact h
  | some answer =>
    rw [hresp] at ht ht'
    cases answer with
    | fail cause =>
      cases ht
      cases ht'
      exact h.lookupFault hi hi'
    | ok words =>
      by_cases hlen : words.length ≤ s.cfg.itemMax
      · simp only [if_pos hlen] at ht
        simp only [h.cfg, if_pos hlen] at ht'
        obtain rfl := Host.Outcome.next.inj ht
        obtain rfl := Host.Outcome.next.inj ht'
        exact h.takeItem hb hmix hsched hi hi'
      · simp only [if_neg hlen] at ht
        simp only [h.cfg, if_neg hlen] at ht'
        cases ht
        cases ht'
        exact h.lookupFault hi hi'

/-- The same digest written by both (R214, R215). -/
theorem Twins.finish (hdig : s'.core.dig = s.core.dig) {bytes : Vector Byte 32}
    (hi : ((s.withCore { s.core with digBytes := bytes }).enterHalt).Inv)
    (hi' : ((s'.withCore { s'.core with digBytes := bytes }).enterHalt).Inv) :
    Twins (s.withCore { s.core with digBytes := bytes }).enterHalt (s'.withCore { s'.core with digBytes := bytes }).enterHalt :=
  { h with
    inv := hi, inv' := hi', pc := rfl, st := rfl, agrees := nofun
    digest := fun _ => ⟨hdig, rfl⟩ }

/-- SERIAL finishes both with the same digest (R214). -/
theorem Twins.exec_serial (hb : s.st = .busy) (hpc : s.pc = ⟨0x0F#8, 0#8, 0#16⟩) {t t' : State} (hi : t.Inv)
    (hi' : t'.Inv) (ht : exec .serial s = .next t) (ht' : exec .serial s' = .next t') : Twins t t' := by
  have hdig : s'.core.dig = s.core.dig := h.agrees_at hb hpc
  rw [Machine.exec_serial] at ht ht'
  rw [h.cfg, hdig] at ht'
  obtain rfl := Host.Outcome.next.inj ht
  obtain rfl := Host.Outcome.next.inj ht'
  exact h.finish hdig hi hi'

/-- The sequencer's micro-operation in a computation. -/
theorem Twins.exec_sequencer (hb : s.st = .busy) {i : Instr} (hd : decodeS s.pc.word = .ok i) {t t' : State}
    (ht : exec i s = .next t) (ht' : exec i s' = .next t') : Twins t t' := by
  have hd' : decodeS s'.pc.word = .ok i := by rwa [h.pc]
  have hb' : s'.st = .busy := h.st.trans hb
  have hi : t.Inv := h.inv.exec_sequencer hd ht
  have hi' : t'.Inv := h.inv'.exec_sequencer hd' ht'
  by_cases hl : ∃ r, i = .lookup r
  · obtain ⟨r, rfl⟩ := hl
    exact h.exec_lookup hb (Pc.eq_of_decode hd rfl) hi hi' ht ht'
  by_cases hserial : i = .serial
  · subst hserial
    exact h.exec_serial hb (Pc.eq_of_decode hd rfl) hi hi' ht ht'
  have hlookup : ∀ r, i ≠ .lookup r := fun r e => hl ⟨r, e⟩
  obtain ⟨k, p, hk, -⟩ := exec_advances h.wf.1 (h.inv.midRun hb) hd hlookup hserial
  obtain ⟨k', p', hk', -⟩ := exec_advances h.wf.2 (h.inv'.midRun hb') hd' hlookup hserial
  obtain ⟨hp, ha⟩ := h.exec_agrees hb hd hlookup hserial _ _ hk hk'
  obtain rfl := Host.Outcome.next.inj (hk.symm.trans ht)
  obtain rfl := Host.Outcome.next.inj (hk'.symm.trans ht')
  exact h.advance hb hi hi' hp ha

/-- The sequencer's turn, which leaves the pending inputs alone. -/
theorem Twins.sequencer {t t' : State} (ht : (fetchSequencer s).outcome = .next t)
    (ht' : (fetchSequencer s').outcome = .next t') : Twins t t' ∧ t.env = s.env ∧ t'.env = s'.env := by
  by_cases hb : s.st = .busy
  · obtain ⟨i, hd, hf⟩ := h.inv.fetchSequencer_of_busy hb
    obtain ⟨i', hd', hf'⟩ := h.inv'.fetchSequencer_of_busy (h.st.trans hb)
    obtain rfl : i = i' := Decoded.ok.inj (hd.symm.trans (h.pc ▸ hd'))
    rw [hf] at ht
    rw [hf'] at ht'
    exact ⟨h.exec_sequencer hb hd ht ht', exec_env ht, exec_env ht'⟩
  · obtain rfl := Host.Outcome.next.inj ((h.inv.fetchSequencer_at_rest hb).symm.trans ht)
    obtain rfl := Host.Outcome.next.inj ((h.inv'.fetchSequencer_at_rest (h.st ▸ hb)).symm.trans ht')
    exact ⟨h, rfl, rfl⟩

/-- The responder's turn: the same index is asked for, of the same dataset (R70, R71). -/
theorem Twins.takeAnswer : Twins s.takeAnswer s'.takeAnswer := by
  have hsame : s'.lookupOutstanding = s.lookupOutstanding := by
    simp only [State.lookupOutstanding, h.st, h.pc, h.resp]
  have hi : s.takeAnswer.Inv := h.inv.takeAnswer
  have hi' : s'.takeAnswer.Inv := h.inv'.takeAnswer
  by_cases hout : s.lookupOutstanding = true
  · obtain ⟨hb, hop, -⟩ := s.lookupOutstanding_iff.1 hout
    rw [State.takeAnswer_of_outstanding hout] at hi ⊢
    rw [State.takeAnswer_of_outstanding (hsame.trans hout)] at hi' ⊢
    exact { h with
      inv := hi, inv' := hi'
      resp := by rw [h.dataset, (h.agrees hb).itemIdx hop] }
  · rw [State.takeAnswer_of_not_outstanding hout, State.takeAnswer_of_not_outstanding (hsame ▸ hout)]
    exact h

/-- The pending inputs are no part of it. -/
theorem Twins.withEnv (env env' : List Event) : Twins { s with env := env } { s' with env := env' } :=
  { h with inv := h.inv.with_free env s.werr s.rdata s.freeCount, inv' := h.inv'.with_free env' s'.werr s'.rdata s'.freeCount }

end

/-! ### The run -/

/-- The first step of a run that goes on. -/
theorem run_succ_next {M : Host.Core} {n : Nat} {s t : M.State} (h : M.run (n + 1) s = .next t) :
    ∃ u, M.step s = .next u ∧ M.run n u = .next t := by
  rw [Host.Core.run] at h
  cases hstep : M.step s with
  | next u =>
    rw [hstep] at h
    exact ⟨u, rfl, h⟩
  | fault r | refused r => rw [hstep] at h; cases h

/-- A turn of the sequencer or the responder that is the oldest pending input of both. -/
theorem Twins.step {s s' u u' : State} (h : Twins s s') {e : Event} {rest : List Event} (he : e = .sequencer ∨ e = .answer)
    (henv : s.env = e :: rest) (henv' : s'.env = e :: rest) (hu : Machine.step s = .next u)
    (hu' : Machine.step s' = .next u') : Twins u u' ∧ u.env = rest ∧ u'.env = rest := by
  have hr := h.withEnv rest rest
  rcases he with rfl | rfl
  · rw [step_sequencer h.wf.1 henv] at hu
    rw [step_sequencer h.wf.2 henv'] at hu'
    exact hr.sequencer hu hu'
  · rw [step_answer h.wf.1 henv] at hu
    rw [step_answer h.wf.2 henv'] at hu'
    obtain rfl := Host.Outcome.next.inj hu
    obtain rfl := Host.Outcome.next.inj hu'
    exact ⟨hr.takeAnswer, State.takeAnswer_env _, State.takeAnswer_env _⟩

/-- Any number of such turns. -/
theorem Twins.run {s s' t t' : State} {turns : List Event} (h : Twins s s')
    (hturns : ∀ e ∈ turns, e = .sequencer ∨ e = .answer) (henv : s.env = turns) (henv' : s'.env = turns)
    (ht : Host.Core.run Sys2Proof.core turns.length s = .next t)
    (ht' : Host.Core.run Sys2Proof.core turns.length s' = .next t') : Twins t t' := by
  induction turns generalizing s s' with
  | nil =>
    obtain rfl : s = t := Host.Outcome.next.inj ht
    obtain rfl : s' = t' := Host.Outcome.next.inj ht'
    exact h
  | cons e rest ih =>
    obtain ⟨u, hu, hrun⟩ := run_succ_next ht
    obtain ⟨u', hu', hrun'⟩ := run_succ_next ht'
    obtain ⟨hnext, hrest, hrest'⟩ := h.step (hturns e List.mem_cons_self) henv henv' hu hu'
    exact ih hnext (fun e he => hturns e (List.mem_cons_of_mem _ he)) hrest hrest' hrun hrun'

/-- Outside ERROR the error registers are zero (R43). -/
theorem State.Inv.errorRegs_of_busy {s : State} (hs : s.Inv) (hb : s.st = .busy) : s.errcode = 0#4 ∧ s.errinfo = 0#32 := by
  obtain ⟨-, -, -, -, -, ⟨-, hiff, hinfo⟩, -⟩ := hs
  have hne : s.st ≠ .error := by simp [hb]
  exact ⟨by_contra fun hcode => hne (hiff.2 hcode), hinfo hne⟩

/-- At MIXSEED nothing of the core state need agree. -/
theorem Twins.of_mixseed {s s' : State} (hs : s.Inv) (hs' : s'.Inv) (hb : s.st = .busy) (hb' : s'.st = .busy)
    (hpc : s.pc = ⟨0x01#8, 0#8, 0#16⟩) (hpc' : s'.pc = ⟨0x01#8, 0#8, 0#16⟩) (hcfg : s'.cfg = s.cfg)
    (hseed : s'.seed = s.seed) (hheight : s'.height = s.height) (hcache : s'.cache = s.cache)
    (hdata : s'.dataset = s.dataset) : Twins s s' := by
  obtain ⟨hcode, hinfo⟩ := hs.errorRegs_of_busy hb
  obtain ⟨hcode', hinfo'⟩ := hs'.errorRegs_of_busy hb'
  have hresp : s.resp = none := hs.resp_none fun _ => by simp [hpc]
  have hresp' : s'.resp = none := hs'.resp_none fun _ => by simp [hpc']
  exact {
    inv := hs, inv' := hs', cfg := hcfg, seed := hseed, height := hheight, cache := hcache, dataset := hdata
    pc := hpc'.trans hpc.symm, st := hb'.trans hb.symm, resp := hresp'.trans hresp.symm
    errcode := hcode'.trans hcode.symm, errinfo := hinfo'.trans hinfo.symm
    agrees := fun _ => by rw [hpc]; exact trivial
    digest := fun hd => absurd (hb.symm.trans hd) (by decide) }

/-- Settles O11: the two states are twins at MIXSEED (`Twins.of_mixseed`), and stay so through every turn (`Twins.run`). -/
theorem digestDependsOnInputsOnly : Obligations.DigestDependsOnInputsOnly := by
  intro s s' t t' turns hs hs' hb hb' hpc hpc' hcfg hseed hheight hcache hdata hturns ht ht'
  have htwins := Twins.of_mixseed hs hs' hb hb' hpc hpc' hcfg hseed hheight hcache hdata
  have hend : Twins t t' := (htwins.withEnv turns turns).run hturns rfl rfl ht ht'
  exact ⟨hend.pc, hend.st, hend.errcode, hend.errinfo, hend.digest⟩

end Sys2Proof.Machine
end

section
/-! MERGE and MATH (R230 to R235): the helper functions of the default tables by what characterizes them, each row of the tables in
numbers, the rows that the selectors pick, and the calls of the configured functions. -/

namespace Sys2Proof.Machine

open Sys2Proof Sys2Proof.Laws

/-! ### The helper functions (R235) -/

/-- The shift by 32 that the two shifted parts have at an amount of 0 gives zero. -/
theorem rotl32_eq_rotateLeft (a : Word) (n : Nat) : rotl32 a n = a.rotateLeft n := by
  rw [rotl32, BitVec.rotateLeft_def]
  split
  case isTrue hn => simp [hn, BitVec.ushiftRight_eq_zero]
  case isFalse => rfl

theorem rotr32_eq_rotateRight (a : Word) (n : Nat) : rotr32 a n = a.rotateRight n := by
  rw [rotr32, BitVec.rotateRight_def]
  split
  case isTrue hn => simp [hn]
  case isFalse => rfl

theorem mulhi32_toNat (a b : Word) : (mulhi32 a b).toNat = a.toNat * b.toNat / 2 ^ 32 := by
  have hprod : a.toNat * b.toNat < 2 ^ 32 * 2 ^ 32 := Nat.mul_lt_mul'' a.isLt b.isLt
  rw [mulhi32, BitVec.toNat_ofNat, Nat.mod_eq_of_lt (Nat.div_lt_of_lt_mul hprod)]

/-- The low `n + 1` bits of a word as a number: bit `n`, and the low `n` bits. -/
theorem toNat_mod_two_pow_succ (a : Word) (n : Nat) :
    a.toNat % 2 ^ (n + 1) = (if a.getLsbD n then 2 ^ n else 0) + a.toNat % 2 ^ n := by
  rw [Nat.mod_pow_succ, ← Nat.toNat_testBit, BitVec.testBit_toNat, Nat.add_comm]
  cases a.getLsbD n <;> simp

theorem size_two_pow_add {m n : Nat} (hm : m < 2 ^ n) : Nat.size (2 ^ n + m) = n + 1 :=
  le_antisymm (Nat.size_le.2 (by rw [Nat.pow_succ]; omega)) (Nat.lt_size.2 (Nat.le_add_right _ _))

/-- Of the low `n` bits, those that are not leading zeros are the binary digits of the number they make. -/
theorem leadingZeros_add_size (a : Word) (n : Nat) : leadingZeros a n + Nat.size (a.toNat % 2 ^ n) = n := by
  induction n with
  | zero => simp [leadingZeros, Nat.mod_one]
  | succ n ih =>
    rw [leadingZeros, toNat_mod_two_pow_succ]
    split
    · rw [size_two_pow_add (Nat.mod_lt _ (Nat.two_pow_pos n)), Nat.zero_add]
    · rw [Nat.zero_add, Nat.add_right_comm, ih]

/-- The leading zero count in terms of the number of binary digits. -/
theorem clz32_add_size (a : Word) : clz32 a + Nat.size a.toNat = 32 := by
  have h := leadingZeros_add_size a 32
  rwa [Nat.mod_eq_of_lt a.isLt] at h

theorem lt_two_pow_clz32 (a : Word) : a.toNat < 2 ^ (32 - clz32 a) :=
  Nat.size_le.1 (Nat.le_sub_of_add_le' (clz32_add_size a).le)

theorem two_pow_clz32_le {a : Word} (ha : a ≠ 0#32) : 2 ^ (31 - clz32 a) ≤ a.toNat := by
  have hpos : 0 < Nat.size a.toNat := Nat.size_pos.2 (Nat.pos_of_ne_zero fun h => ha (BitVec.eq_of_toNat_eq h))
  have hsum := clz32_add_size a
  exact Nat.lt_size.1 (by omega)

theorem onesBelow_eq_length_filter (a : Word) (n : Nat) :
    onesBelow a n = ((List.range n).filter fun i => a.getLsbD i).length := by
  induction n with
  | zero => rfl
  | succ n ih =>
    rw [onesBelow, ih, List.range_succ, List.filter_append, List.length_append]
    cases h : a.getLsbD n <;> simp [h]

theorem mathTable3_toNat (a b : Word) : (mathTable3 a b).toNat = min a.toNat b.toNat := by
  rw [mathTable3, apply_ite BitVec.toNat, min_def]

/-- Settles O50: the rotations are the library's, and the leading zero count is 32 less the number of binary digits. -/
theorem helperFunctionsOfTheTables : Obligations.HelperFunctionsOfTheTables := by
  refine fun a b => ⟨fun n => ⟨?_, ?_⟩, mulhi32_toNat a b, Nat.le.intro (clz32_add_size a), lt_two_pow_clz32 a,
    two_pow_clz32_le, clz32_add_size 0#32, onesBelow_eq_length_filter a 32, mathTable3_toNat a b⟩
  · rw [rotl32_eq_rotateLeft, BitVec.rotateLeft_mod_eq_rotateLeft]
  · rw [rotr32_eq_rotateRight, BitVec.rotateRight_mod_eq_rotateRight]

/-! ### The rows of the tables in numbers (R233, R234) -/

theorem mergeTable0_eq_ofNat (a b : Word) : mergeTable0 a b = BitVec.ofNat 32 (a.toNat * 33 + b.toNat) := by
  simp [mergeTable0, BitVec.ofNat_add, BitVec.ofNat_mul]

theorem mergeTable1_eq_ofNat (a b : Word) : mergeTable1 a b = BitVec.ofNat 32 ((a.toNat ^^^ b.toNat) * 33) := by
  simp [mergeTable1, ← BitVec.toNat_xor, BitVec.ofNat_mul]

/-- The rotate amount does not depend on the row bits of the selector (R96). -/
theorem rotAmount_mergeSelectorWord (hi : BitVec 30) (k : BitVec 2) :
    rotAmount (mergeSelectorWord hi k) = hi.toNat / 2 ^ 14 % 31 + 1 := by
  rw [rotAmount, mergeSelectorWord_toNat]
  omega

theorem mergeTable2_mergeSelectorWord (a b : Word) (hi : BitVec 30) (k : BitVec 2) :
    mergeTable2 a b (mergeSelectorWord hi k) = a.rotateLeft (hi.toNat / 2 ^ 14 % 31 + 1) ^^^ b := by
  rw [mergeTable2, rotAmount_mergeSelectorWord, rotl32_eq_rotateLeft]

theorem mergeTable3_mergeSelectorWord (a b : Word) (hi : BitVec 30) (k : BitVec 2) :
    mergeTable3 a b (mergeSelectorWord hi k) = a.rotateRight (hi.toNat / 2 ^ 14 % 31 + 1) ^^^ b := by
  rw [mergeTable3, rotAmount_mergeSelectorWord, rotr32_eq_rotateRight]

theorem mathTable0_eq_ofNat (a b : Word) : mathTable0 a b = BitVec.ofNat 32 (a.toNat + b.toNat) := by
  simp [mathTable0, BitVec.ofNat_add]

theorem mathTable1_eq_ofNat (a b : Word) : mathTable1 a b = BitVec.ofNat 32 (a.toNat * b.toNat) := by
  simp [mathTable1, BitVec.ofNat_mul]

theorem mathTable3_eq_ofNat (a b : Word) : mathTable3 a b = BitVec.ofNat 32 (min a.toNat b.toNat) := by
  rw [← mathTable3_toNat, BitVec.ofNat_toNat, BitVec.setWidth_eq]

theorem mathTable4_eq_rotateLeft (a b : Word) : mathTable4 a b = a.rotateLeft (b.toNat % 32) := by
  rw [mathTable4, rotl32_eq_rotateLeft, BitVec.rotateLeft_mod_eq_rotateLeft]

theorem mathTable5_eq_rotateRight (a b : Word) : mathTable5 a b = a.rotateRight (b.toNat % 32) := by
  rw [mathTable5, rotr32_eq_rotateRight, BitVec.rotateRight_mod_eq_rotateRight]

/-- What a call answers when its value is known: the result of the port, and nothing else (log entries 12, 13). -/
theorem next_withResult {v w : Word} (h : v = w) (s : State) :
    (.next (s.withResult v) : Result) = .next { s with port := { s.port with result := w } } := by
  rw [h, State.withResult]

/-- Settles O48: a row answers its table's value, which the lemmas above say in numbers and rotations. -/
theorem mergeRowResults : Obligations.MergeRowResults := fun s hi =>
  ⟨next_withResult (mergeTable0_eq_ofNat s.port.a s.port.b) s,
    next_withResult (mergeTable1_eq_ofNat s.port.a s.port.b) s,
    next_withResult (mergeTable2_mergeSelectorWord s.port.a s.port.b hi 2#2) s,
    next_withResult (mergeTable3_mergeSelectorWord s.port.a s.port.b hi 3#2) s⟩

/-- Settles O49: as for MERGE; in rows 2 and 6 to 10 the number is the table's own definition. -/
theorem mathRowResults : Obligations.MathRowResults := fun s _ =>
  ⟨next_withResult (mathTable0_eq_ofNat s.port.a s.port.b) s,
    next_withResult (mathTable1_eq_ofNat s.port.a s.port.b) s, rfl,
    next_withResult (mathTable3_eq_ofNat s.port.a s.port.b) s,
    next_withResult (mathTable4_eq_rotateLeft s.port.a s.port.b) s,
    next_withResult (mathTable5_eq_rotateRight s.port.a s.port.b) s, rfl, rfl, rfl, rfl, rfl⟩

/-! ### The rows that the selectors pick (R96) -/

/-- The decoder and the default MERGE table read the same two bits of a selector. -/
theorem mergeSelectorWord_runs_defaultMerge (s : State) (hi : BitVec 30) (k : BitVec 2) :
    ∃ i, decodeMergeSelector (mergeSelectorWord hi k) = .ok i ∧
      exec i s = .next (s.withResult (defaultMerge s.port.a s.port.b (mergeSelectorWord hi k))) := by
  rw [decodeMergeSelector, selectorHigh_mergeSelectorWord, mergeSelectorWord_row, defaultMerge, OpCode.merge_row]
  match k with
  | 0#2 | 1#2 | 2#2 | 3#2 => exact ⟨_, rfl, rfl⟩

/-- The decoder and the default MATH table read the same residue of a selector. -/
theorem mathSelectorWord_runs_defaultMath (s : State) {q k : Nat} (hk : k < 11) (h : 11 * q + k < 2 ^ 32) :
    ∃ i, decodeMathSelector (mathSelectorWord q k) = .ok i ∧
      exec i s = .next (s.withResult (defaultMath s.port.a s.port.b (mathSelectorWord q k))) := by
  rw [decodeMathSelector_mathSelectorWord hk h, defaultMath, OpCode.math_row hk h]
  interval_cases k <;> exact ⟨_, rfl, rfl⟩

/-- Settles O47: every selector is put together from its row and its other bits, or its quotient. -/
theorem selectorRowsAreTheDefaultTables : Obligations.SelectorRowsAreTheDefaultTables := by
  intro s sel
  constructor
  · have h := mergeSelectorWord_runs_defaultMerge s (selectorHigh sel) (sel.extractLsb' 0 2)
    rwa [mergeSelectorWord_fields] at h
  · have h := mathSelectorWord_runs_defaultMath s (Nat.mod_lt sel.toNat (by decide : 0 < 11))
      (by rw [Nat.div_add_mod]; exact sel.isLt)
    rwa [mathSelectorWord_div_mod] at h

/-! ### The configured functions (R231, R232) -/

section
variable {c : Cfg}

theorem applyMerge_external {n : Nat} (h : c.merge = .external n) : applyMerge c = Config.externalMerge n := by
  funext a b sel
  rw [applyMerge, h]

theorem applyMath_external {n : Nat} (h : c.math = .external n) : applyMath c = Config.externalMath n := by
  funext a b sel
  rw [applyMath, h]

theorem applyMerge_defaultTable (h : c.merge = .defaultTable) : applyMerge c = defaultMerge := by
  funext a b sel
  rw [applyMerge, h]

theorem applyMath_defaultTable (h : c.math = .defaultTable) : applyMath c = defaultMath := by
  funext a b sel
  rw [applyMath, h]

end

/-- R231 on the operands of the port (log entry 12). -/
theorem exec_merge (s : State) : exec .merge s = .next (s.withResult (applyMerge s.cfg s.port.a s.port.b s.port.c)) := rfl

/-- R232 on the operands of the port (log entry 12). -/
theorem exec_math (s : State) : exec .math s = .next (s.withResult (applyMath s.cfg s.port.a s.port.b s.port.c)) := rfl

/-- Settles O46: a call writes the configured function's value to the port, and the configuration says which function that is. -/
theorem mergeAndMathAreConfigured : Obligations.MergeAndMathAreConfigured :=
  ⟨by decide, by decide, fun s => ⟨exec_merge s, exec_math s, fun _ => applyMerge_external, fun _ => applyMath_external,
    applyMerge_defaultTable, applyMath_defaultTable⟩⟩

end Sys2Proof.Machine
end

section
/-! The register window: what stands at an offset in numbers (R250), what a register shows to a read, and what a host access
does in a step (R250 to R256, R260, R263). -/

namespace Sys2Proof.Machine

open Sys2Proof

/-! ### What stands at an offset (R250) -/

section
variable {c : Cfg} {offset : Word}

/-- The digest words stand at `0x020` to `0x03C`. -/
theorem windowReg_dig (hlow : 0x020 ≤ offset.toNat) (hhigh : offset.toNat ≤ 0x03C) :
    windowReg c offset = .dig ⟨(offset.toNat - 0x020) / 4, by omega⟩ := by
  unfold windowReg
  split
  case h_9 => exact dif_pos ⟨hlow, hhigh⟩
  all_goals omega

/-- Past the digest words stand the cache words and nothing else. -/
theorem windowReg_past_dig (h : 0x040 ≤ offset.toNat) : windowReg c offset =
    if cacheBase ≤ offset.toNat ∧ (offset.toNat - cacheBase) / 4 < c.cacheSize then
      .cacheWord ((offset.toNat - cacheBase) / 4) else .unused := by
  unfold windowReg
  split
  case h_9 => exact dif_neg (by omega)
  all_goals omega

/-- The address of a cache word. -/
theorem windowReg_of_cacheAddr {k : Nat} (hk : k < c.cacheSize) (h : offset.toNat = cacheAddr k) :
    windowReg c offset = .cacheWord k := by
  have hindex : (offset.toNat - cacheBase) / 4 = k := by rw [h, cacheAddr]; omega
  rw [windowReg_past_dig (by rw [h, cacheAddr, cacheBase]; omega), hindex]
  exact if_pos ⟨by rw [h, cacheAddr]; omega, hk⟩

/-- The two ranges where nothing stands. -/
theorem windowReg_unused (h : (0x040 ≤ offset.toNat ∧ offset.toNat ≤ 0x7FFFFFFC) ∨
    0x80000000 + 4 * c.cacheSize ≤ offset.toNat) : windowReg c offset = .unused := by
  rw [windowReg_past_dig (by omega), cacheBase]
  exact if_neg (by omega)

/-- No offset but 0 is `CTRL`. -/
theorem windowReg_ne_ctrl (h : offset ≠ 0#32) : windowReg c offset ≠ .ctrl := fun hctrl => h (windowReg_ctrl hctrl)

theorem accessLegal_iff {width : Nat} : accessLegal offset width = true ↔ width = 32 ∧ offset.toNat % 4 = 0 := by
  simp [accessLegal]

/-- On a well-formed configuration every cache word has a 32-bit offset. -/
theorem cacheAddr_toNat (hw : c.wf = true) {k : Nat} (hk : k < c.cacheSize) :
    (BitVec.ofNat 32 (0x80000000 + 4 * k)).toNat = cacheAddr k := by
  have hsize : c.cacheSize ≤ 2 ^ 29 := by have := (Cfg.wf_iff c).1 hw; omega
  rw [BitVec.toNat_ofNat, Nat.mod_eq_of_lt (by omega), cacheAddr, cacheBase]

end

/-! ### Words put together (R68, R252, R253) -/

/-- A word of two fields as a number. -/
theorem append_toNat {m n : Nat} (x : BitVec m) (y : BitVec n) : (x ++ y).toNat = x.toNat * 2 ^ n + y.toNat := by
  rw [BitVec.toNat_append, ← Nat.shiftLeft_add_eq_or_of_lt y.isLt, Nat.shiftLeft_eq]

theorem join64_toNat (hi lo : Word) : (join64 hi lo).toNat = hi.toNat * 2 ^ 32 + lo.toNat := append_toNat hi lo

theorem lo32_toNat (x : U64) : (lo32 x).toNat = x.toNat % 2 ^ 32 := by
  rw [lo32_eq_ofNat, BitVec.toNat_ofNat, Nat.mod_mod]

theorem hi32_toNat (x : U64) : (hi32 x).toNat = x.toNat / 2 ^ 32 := by
  have hbound := x.isLt
  rw [hi32_eq_ofNat, BitVec.toNat_ofNat, Nat.mod_eq_of_lt (by omega)]

/-- `STATUS` in numbers (R252). -/
theorem State.statusWord_toNat (s : State) :
    s.statusWord.toNat = s.st.code.toNat + 4 * s.werr.toNat + 16 * s.errcode.toNat := by
  simp only [State.statusWord, append_toNat, BitVec.toNat_ofBool, BitVec.toNat_ofNat]
  omega

/-- `PCREG` in numbers (R253). -/
theorem State.pcreg_toNat (s : State) :
    s.pcreg.toNat = s.pc.op.toNat * 2 ^ 24 + s.pc.r.toNat * 2 ^ 16 + s.pc.idx.toNat := by
  simp only [State.pcreg, append_toNat]
  omega

/-! ### Reads -/

/-- What a register shows to a read, where that is a value of the state (R250 to R256, R263). -/
def State.dataAt (s : State) : WindowReg → Option Word
  | .ctrl | .unused => some 0#32
  | .status => some s.statusWord
  | .pcreg => some s.pcreg
  | .errinfo => some s.errinfo
  | .seedLo => if s.seedLoHeld then some (lo32 s.seed) else none
  | .seedHi => if s.seedHiHeld then some (hi32 s.seed) else none
  | .heightLo => if s.heightLoHeld then some (lo32 s.height) else none
  | .heightHi => if s.heightHiHeld then some (hi32 s.height) else none
  | .dig j => some (if s.st = .done then s.core.dig[j] else 0#32)
  | .cacheWord k => if s.st = .busy then some 0#32 else s.cacheHeld k

/-- A half that holds a value is read as it is. -/
theorem State.readHalf_of_held {s : State} {held : Bool} {v w : Word} (h : (if held then some v else none) = some w) :
    s.readHalf held v = { s with rdata := w } := by
  cases held
  · cases h
  · cases h
    rfl

/-- A cache word that holds a value is read as it is, and reads 0 while BUSY (R255, R256). -/
theorem State.readCache_of_held {s : State} {k : Nat} {w : Word}
    (h : (if s.st = .busy then some 0#32 else s.cacheHeld k) = some w) :
    (if s.st = .busy then { s with rdata := 0#32 } else s.readHalf (s.cacheHeld k).isSome ((s.cacheHeld k).getD 0#32)) =
      { s with rdata := w } := by
  split at h
  case isTrue hb => cases h; exact if_pos hb
  case isFalse hb => rw [if_neg hb, h]; rfl

/-- A read gives what the register shows. -/
theorem State.hostRead_of_dataAt {s : State} {offset w : Word} (hal : offset.toNat % 4 = 0)
    (h : s.dataAt (windowReg s.cfg offset) = some w) : s.hostRead offset 32 = { s with rdata := w } := by
  rw [State.hostRead, if_pos (accessLegal_iff.2 ⟨rfl, hal⟩)]
  cases hreg : windowReg s.cfg offset <;> rw [hreg] at h
  case seedLo | seedHi | heightLo | heightHi => exact State.readHalf_of_held h
  case cacheWord k => exact State.readCache_of_held h
  all_goals
    cases h
    rfl

section
variable {s : State} {offset : Word} {rest : List Event} (hw : s.cfg.wf = true)
include hw

/-- A 32-bit read at a multiple of 4. -/
theorem step_hostRead {w : Word} (he : s.env = .host (.read offset 32) :: rest) (hal : offset.toNat % 4 = 0)
    (h : s.dataAt (windowReg s.cfg offset) = some w) : step s = .next { s with env := rest, rdata := w } := by
  have hread : State.hostRead { s with env := rest } offset 32 = { s with env := rest, rdata := w } :=
    State.hostRead_of_dataAt hal h
  rw [step_host hw he, fetchHost, Fetched.outcome_settled, hread]

/-- Every other read gives 0 (R250). -/
theorem step_hostRead_illegal {width : Nat} (he : s.env = .host (.read offset width) :: rest)
    (h : ¬ accessLegal offset width = true) : step s = .next { s with env := rest, rdata := 0#32 } := by
  rw [step_host hw he, fetchHost, Fetched.outcome_settled, State.hostRead, if_neg h]

/-! ### Writes -/

variable {width : Nat} {v : Word}

/-- A write that is not 32 bits wide at a multiple of 4 is refused (R260 (e)). -/
theorem step_hostWrite_illegal (he : s.env = .host (.write offset width v) :: rest)
    (h : ¬ accessLegal offset width = true) : step s = .next { s with env := rest, werr := true } := by
  rw [step_host hw he, fetchHost, if_neg h]
  rfl

/-- A 32-bit write at a multiple of 4 goes to the register that stands there. -/
theorem step_hostWrite {reg : WindowReg} (he : s.env = .host (.write offset 32 v) :: rest) (hal : offset.toNat % 4 = 0)
    (hreg : windowReg s.cfg offset = reg) (hctrl : reg ≠ .ctrl) :
    step s = .next (State.hostWriteData { s with env := rest } reg v) := by
  rw [step_host hw he, fetchHost, if_pos (accessLegal_iff.2 ⟨rfl, hal⟩), hreg]
  cases reg
  case ctrl => exact absurd rfl hctrl
  all_goals rfl

end

/-- The registers that hold an input (R254, R255). -/
def WindowReg.isInput : WindowReg → Bool
  | .seedLo | .seedHi | .heightLo | .heightHi | .cacheWord _ => true
  | .ctrl | .status | .pcreg | .errinfo | .dig _ | .unused => false

/-- A write is refused while BUSY, and to a register that holds no input (R260). -/
theorem State.hostWriteData_refused {s : State} {reg : WindowReg} (h : s.st = .busy ∨ reg.isInput = false) (v : Word) :
    s.hostWriteData reg v = s.refuseWrite := by
  by_cases hb : s.st = .busy
  · exact State.hostWriteData_of_busy hb reg v
  · cases reg
    case seedLo | seedHi | heightLo | heightHi | cacheWord => cases h.resolve_left hb
    all_goals exact if_neg hb

/-- While `ST` is not BUSY a write to an input is taken (R254, R255). -/
theorem State.hostWriteData_accepted {s : State} (hb : s.st ≠ .busy) (v : Word) :
    s.hostWriteData .seedLo v = { s with seed := join64 (hi32 s.seed) v, seedLoHeld := true } ∧
    s.hostWriteData .seedHi v = { s with seed := join64 v (lo32 s.seed), seedHiHeld := true } ∧
    s.hostWriteData .heightLo v = { s with height := join64 (hi32 s.height) v, heightLoHeld := true } ∧
    s.hostWriteData .heightHi v = { s with height := join64 v (lo32 s.height), heightHiHeld := true } ∧
    ∀ k, s.hostWriteData (.cacheWord k) v = s.writeCache k v :=
  ⟨if_neg hb, if_neg hb, if_neg hb, if_neg hb, fun _ => if_neg hb⟩

/-- A refused write in a step. -/
theorem step_hostWrite_refused {s : State} {offset v : Word} {rest : List Event} (hw : s.cfg.wf = true)
    (he : s.env = .host (.write offset 32 v) :: rest) (hal : offset.toNat % 4 = 0) (hne : offset ≠ 0#32)
    (h : s.st = .busy ∨ (windowReg s.cfg offset).isInput = false) :
    step s = .next { s with env := rest, werr := true } := by
  have hrefused : State.hostWriteData { s with env := rest } (windowReg s.cfg offset) v =
      State.refuseWrite { s with env := rest } :=
    State.hostWriteData_refused (s := { s with env := rest }) h v
  rw [step_hostWrite hw he hal rfl (windowReg_ne_ctrl hne), hrefused]
  rfl

/-! ### The statements -/

/-- Settles O52: each write goes to its half (`State.hostWriteData_accepted`), and the join is that of `join64_toNat`. -/
theorem hostWritesInputHalves : Obligations.HostWritesInputHalves := by
  intro s v rest hw hb
  obtain ⟨hseedLo, hseedHi, hheightLo, hheightHi, -⟩ :=
    State.hostWriteData_accepted (s := { s with env := rest }) hb v
  refine ⟨fun he => ⟨join64 (hi32 s.seed) v, by rw [join64_toNat, hi32_toNat], ?_⟩,
    fun he => ⟨join64 v (lo32 s.seed), by rw [join64_toNat, lo32_toNat], ?_⟩,
    fun he => ⟨join64 (hi32 s.height) v, by rw [join64_toNat, hi32_toNat], ?_⟩,
    fun he => ⟨join64 v (lo32 s.height), by rw [join64_toNat, lo32_toNat], ?_⟩⟩
  · rw [step_hostWrite (reg := .seedLo) hw he rfl rfl nofun, hseedLo]
  · rw [step_hostWrite (reg := .seedHi) hw he rfl rfl nofun, hseedHi]
  · rw [step_hostWrite (reg := .heightLo) hw he rfl rfl nofun, hheightLo]
  · rw [step_hostWrite (reg := .heightHi) hw he rfl rfl nofun, hheightHi]

/-- What a write of one cache word does to the others and to the bytes outside it (R255). -/
theorem State.writeCache_reads (s : State) (k : Nat) (v : Word) :
    (s.writeCache k v).cacheHeld k = some v ∧ (s.writeCache k v).cacheWord k = v ∧
    ∀ k', k' ≠ k → (s.writeCache k v).cacheHeld k' = s.cacheHeld k' ∧
      (s.writeCache k v).cacheWord k' = s.cacheWord k' := by
  have hheld := s.cacheHeld_writeCache k
  refine ⟨by rw [hheld, if_pos rfl], by rw [State.cacheWord, hheld, if_pos rfl, Option.getD_some], fun k' hne => ?_⟩
  have hother : (s.writeCache k v).cacheHeld k' = s.cacheHeld k' := by rw [hheld, if_neg hne]
  exact ⟨hother, by rw [State.cacheWord, hother, State.writeCache_freeCount, ← State.cacheWord]⟩

/-- Settles O53: the offset of a cache word names it (`windowReg_of_cacheAddr`); then the write is taken or refused, and the
read gives what `State.dataAt` says. -/
theorem cacheWindowObeysSt : Obligations.CacheWindowObeysSt := by
  intro s k v rest hw hk
  have haddr := cacheAddr_toNat hw hk
  have hreg := windowReg_of_cacheAddr hk haddr
  have hal : (BitVec.ofNat 32 (0x80000000 + 4 * k)).toNat % 4 = 0 := by rw [haddr, cacheAddr, cacheBase]; omega
  refine ⟨fun he hb => ?taken, fun he hb => ?refused, fun he hb hheld => ?shown, fun he hb => ?hidden⟩
  case taken =>
    obtain ⟨-, -, -, -, hwrite⟩ := State.hostWriteData_accepted (s := { s with env := rest }) hb v
    refine ⟨writeWord s.cache (cacheAddr k) v, ?_, State.writeCache_reads { s with env := rest } k v, fun a ha => ?_⟩
    · rw [step_hostWrite hw he hal hreg nofun, hwrite]
      rfl
    · rw [readByte_writeWord, if_neg (by omega)]
  case refused =>
    refine step_hostWrite_refused hw he hal (fun hzero => ?_) (.inl hb)
    have : cacheAddr k = 0 := haddr.symm.trans (congrArg BitVec.toNat hzero)
    simp [cacheAddr, cacheBase] at this
  case shown => exact step_hostRead hw he hal (by rw [hreg]; exact (if_neg hb).trans hheld)
  case hidden => exact step_hostRead hw he hal (by rw [hreg]; exact if_pos hb)

/-- The offset of a digest word names it (R250). -/
theorem windowReg_of_digAddr (c : Cfg) (j : Fin 8) : windowReg c (BitVec.ofNat 32 (0x020 + 4 * j.val)) = .dig j := by
  have haddr : (BitVec.ofNat 32 (0x020 + 4 * j.val)).toNat = 0x020 + 4 * j.val := by
    rw [BitVec.toNat_ofNat, Nat.mod_eq_of_lt (by omega)]
  rw [windowReg_dig (by omega) (by omega)]
  congr 2
  omega

/-- Settles O54: each offset names its register, and `State.dataAt` says what that shows. -/
theorem hostReadsRegisters : Obligations.HostReadsRegisters := by
  intro s rest hw
  refine ⟨fun he => step_hostRead hw he rfl rfl,
    fun he => ⟨s.statusWord, s.statusWord_toNat, step_hostRead hw he rfl rfl⟩,
    fun he => ⟨s.pcreg, s.pcreg_toNat, step_hostRead hw he rfl rfl⟩,
    fun he => step_hostRead hw he rfl rfl,
    fun j he => step_hostRead hw he (by simp only [BitVec.toNat_ofNat]; omega) (by rw [windowReg_of_digAddr]; rfl),
    fun he hheld => step_hostRead hw he rfl ((if_pos hheld).trans (by rw [lo32_eq_ofNat])),
    fun he hheld => step_hostRead hw he rfl ((if_pos hheld).trans (by rw [hi32_eq_ofNat])),
    fun he hheld => step_hostRead hw he rfl ((if_pos hheld).trans (by rw [lo32_eq_ofNat])),
    fun he hheld => step_hostRead hw he rfl ((if_pos hheld).trans (by rw [hi32_eq_ofNat])),
    fun offset width he hzero => ?zero⟩
  case zero =>
    by_cases hlegal : accessLegal offset width = true
    · obtain ⟨rfl, hal⟩ := accessLegal_iff.1 hlegal
      have hunused : windowReg s.cfg offset = .unused := windowReg_unused (by omega)
      exact step_hostRead hw he hal (by rw [hunused]; rfl)
    · exact step_hostRead_illegal hw he hlegal

/-- Settles O55: a write of the wrong width or at no multiple of 4 is refused as such; a START and a reserved word stand in
`CTRL`; every other offset of the list is not 0 and is BUSY or names no input. -/
theorem refusedWritesSetWerrOnly : Obligations.RefusedWritesSetWerrOnly := by
  intro s offset v width rest hw he hrefused
  by_cases hlegal : accessLegal offset width = true
  case neg => exact step_hostWrite_illegal hw he hlegal
  obtain ⟨rfl, hal⟩ := accessLegal_iff.1 hlegal
  have noInput (hne : offset ≠ 0#32) (h : (windowReg s.cfg offset).isInput = false) :
      step s = .next { s with env := rest, werr := true } := step_hostWrite_refused hw he hal hne (.inr h)
  rcases hrefused with ⟨hb, hinput⟩ | ⟨hb, rfl, rfl⟩ | rfl | rfl | rfl | ⟨hlow, hhigh⟩ | hunused | hunused |
    ⟨rfl, hv⟩ | hmis | hwidth
  · refine step_hostWrite_refused hw he hal (fun hzero => ?_) (.inl hb)
    obtain ⟨k, -, hk⟩ : ∃ k < s.cfg.cacheSize, 0 = 0x80000000 + 4 * k := by simpa [hzero] using hinput
    omega
  · rw [step_host hw he, fetchHost_of_command (i := .start) (by decide), Fetched.outcome_run]
    exact if_pos hb
  · exact noInput (by decide) rfl
  · exact noInput (by decide) rfl
  · exact noInput (by decide) rfl
  · exact noInput (by rintro rfl; cases hlow) (by rw [windowReg_dig hlow hhigh]; rfl)
  · exact noInput (by rintro rfl; cases hunused.1) (by rw [windowReg_unused (.inl hunused)]; rfl)
  · exact noInput (by rintro rfl; simp at hunused) (by rw [windowReg_unused (.inr hunused)]; rfl)
  · exact step_of_reservedCommand hw he hv
  · exact absurd hal hmis
  · exact absurd rfl hwidth

end Sys2Proof.Machine
end

section
/-! `WERR` is sticky and ERROR is left by no way but START and reset (R260, R275). -/

namespace Sys2Proof.Machine

open Sys2Proof

/-- Only START writes `WERR` (R257, R260, R274). -/
theorem exec_werr {i : Instr} {s t : State} (hi : i ≠ .start) (h : exec i s = .next t) : t.werr = s.werr := by
  cases i
  case start => exact absurd rfl hi
  case abort => rcases execAbort_cases h with ⟨-, rfl⟩ | ⟨-, rfl⟩ <;> rfl
  case lookup => rcases execLookup_cases h with ⟨-, rfl⟩ | ⟨_, -, -, rfl⟩ | ⟨_, -, -, rfl⟩ <;> rfl
  case cacheop | dagmerge =>
    simp only [exec, execCacheop, execDagmerge] at h
    split at h <;> cases h
    simp
  case kseed | knext =>
    cases h
    cases hg : s.port.gen <;> simp
  all_goals
    cases h
    simp

/-- `WERR` stays set through every turn but a START and reset. -/
theorem State.Inv.turn_werr {s t : State} {e : Event} (hs : s.Inv) (h : Turn s e t) (hstart : e.isStart = false)
    (hreset : e ≠ .reset) (hwerr : s.werr = true) : t.werr = true := by
  cases h
  case sequencer i _ hd _ h =>
    refine (exec_werr (fun hi => ?_) h).trans hwerr
    obtain ⟨hf, -⟩ := State.pc_op_of_decode hd
    cases hi ▸ hf
  case call hcall _ _ =>
    obtain ⟨-, -, -, -, -, -, -, hnone, -⟩ := hs
    cases hnone.symm.trans hcall
  case hostRead offset width =>
    obtain ⟨v, n, e⟩ := s.hostRead_frame offset width
    rw [e]
    exact hwerr
  case command w i hd h =>
    refine (exec_werr (fun hi => ?_) h).trans hwerr
    rcases decodeH_cases hd with ⟨-, rfl⟩ | ⟨rfl, -⟩ | ⟨-, rfl⟩
    · cases hi
    · cases hstart
    · cases hi
  case hostData offset v _ _ =>
    rcases s.hostWriteData_cases (windowReg s.cfg offset) v with
      e | ⟨-, ⟨_, _, e⟩ | ⟨_, _, e⟩ | ⟨_, _, e⟩ | ⟨_, _, e⟩ | ⟨_, -, e⟩⟩
    case inl => rw [e]; rfl
    all_goals
      rw [e]
      exact hwerr
  case hostRefused => rfl
  case answer =>
    obtain ⟨r, e⟩ := s.takeAnswer_frame
    rw [e]
    exact hwerr
  case staleAnswer => exact hwerr
  case dataset => exact hwerr
  case reset => exact absurd rfl hreset

/-- ERROR is kept by every turn but a START and reset: nothing else touches a block at rest (`turn_progress_at_rest`). -/
theorem State.Inv.turn_error {s t : State} {e : Event} (hs : s.Inv) (h : Turn s e t) (hstart : e.isStart = false)
    (hreset : e ≠ .reset) (herr : s.st = .error) : t.st = .error := by
  have hb : s.st ≠ .busy := by simp [herr]
  obtain ⟨-, -, hst⟩ := (s.progress_eq_iff t).1 (hs.turn_progress_at_rest hb h hstart hreset)
  exact hst.trans herr

/-- A turn that clears `WERR` or leaves ERROR is a START or reset. -/
theorem State.Inv.turn_clears {s t : State} {e : Event} (hs : s.Inv) (h : Turn s e t)
    (hclear : (s.werr = true ∧ t.werr = false) ∨ (s.st = .error ∧ t.st ≠ .error)) : e.isStart = true ∨ e = .reset := by
  by_contra hother
  obtain ⟨hstart, hreset⟩ : e.isStart = false ∧ e ≠ .reset := by simpa using hother
  rcases hclear with ⟨hset, hcleared⟩ | ⟨herr, hleft⟩
  · exact Bool.false_ne_true (hcleared.symm.trans (hs.turn_werr h hstart hreset hset))
  · exact hleft (hs.turn_error h hstart hreset herr)

/-- Settles O56: with nothing pending the sequencer acts, which is neither; else the turn is that of the input taken. -/
theorem onlyStartOrResetClears : Obligations.OnlyStartOrResetClears := by
  intro s t hs h hclear
  obtain ⟨-, ⟨-, hturn⟩ | ⟨e, rest, he, hturn⟩⟩ := step_turn h
  · rcases hs.turn_clears hturn hclear with hstart | hreset
    · cases hstart
    · cases hreset
  · exact ⟨e, rest, he, (hs.with_free rest s.werr s.rdata s.freeCount).turn_clears hturn hclear⟩

end Sys2Proof.Machine
end

section
/-! The commands NOP, START and ABORT in every `ST` (R257 to R259), the fault entry of LOOKUP (R272, R274), and the outcomes
a step of a good state can have (R270, R281). -/

namespace Sys2Proof.Machine

open Sys2Proof

/-! ### The commands -/

/-- What it is that every input holds a value (R47). -/
theorem State.inputsHeld_iff (s : State) : s.inputsHeld = true ↔
    s.seedLoHeld = true ∧ s.seedHiHeld = true ∧ s.heightLoHeld = true ∧ s.heightHiHeld = true ∧
      ∀ k, k < s.cfg.cacheSize → ∃ v, s.cacheHeld k = some v := by
  simp only [State.inputsHeld, Bool.and_eq_true, List.all_eq_true, List.mem_range, Option.isSome_iff_exists, and_assoc]

theorem execStart_of_busy {s : State} (hb : s.st = .busy) : execStart s = .next s.refuseWrite := if_pos hb

theorem execStart_of_inputsHeld {s : State} (hb : s.st ≠ .busy) (hin : s.inputsHeld = true) :
    execStart s = .next s.beginRun := (if_neg hb).trans (if_pos hin)

theorem execStart_of_inputsMissing {s : State} (hb : s.st ≠ .busy) (hin : s.inputsHeld = false) :
    execStart s = .refused .startWithoutInputs := (if_neg hb).trans (if_neg (by simp [hin]))

theorem execAbort_of_busy {s : State} (hb : s.st = .busy) : execAbort s = .next s.abandonRun := if_pos hb

theorem execAbort_at_rest {s : State} (hb : s.st ≠ .busy) : execAbort s = .next s := if_neg hb

/-- Settles O51: each command in each `ST` by its equation; `beginRun` and `abandonRun` drop the core state. -/
theorem hostCommandsActOnSt : Obligations.HostCommandsActOnSt :=
  ⟨rfl, rfl, rfl, fun s => ⟨rfl, execStart_of_busy, fun hb hin => ⟨_, _, execStart_of_inputsHeld hb hin⟩,
    execStart_of_inputsMissing, s.inputsHeld_iff, fun hb => ⟨_, _, execAbort_of_busy hb⟩, execAbort_at_rest⟩⟩

/-! ### The fault entry -/

/-- A failure in hand raises the exception with the recorded cause (R272). -/
theorem execLookup_of_failure {s : State} {cause : BitVec 2} (hr : s.resp = some (.fail cause)) (r : BitVec 8) :
    execLookup r s = .next (s.lookupFault (recordedCause cause) s.core.itemIdx) := by
  rw [execLookup, hr]

/-- An answer that does not fit the buffer raises it with cause 3 (R272). -/
theorem execLookup_of_tooLong {s : State} {words : List Word} (hr : s.resp = some (.ok words))
    (hlen : s.cfg.itemMax < words.length) (r : BitVec 8) :
    execLookup r s = .next (s.lookupFault 3#4 s.core.itemIdx) := by
  rw [execLookup, hr]
  exact if_neg (Nat.not_le_of_lt hlen)

/-- Settles O32: one lemma for each kind of answer; the fault entry drops the core state. -/
theorem lookupFaultEntersFault : Obligations.LookupFaultEntersFault := fun _ r =>
  ⟨fun _ hr => ⟨_, _, execLookup_of_failure hr r⟩, fun _ hr hlen => ⟨_, _, execLookup_of_tooLong hr hlen r⟩⟩

/-! ### Safety -/

theorem SafeOutcome.of_next {o : Result} (h : ∃ t, o = .next t) : SafeOutcome o := by
  obtain ⟨t, rfl⟩ := h
  trivial

/-- The sequencer's turn completes, at rest and in a computation (R281). -/
theorem State.Inv.sequencer_completes {s : State} (hs : s.Inv) : ∃ t, (fetchSequencer s).outcome = .next t := by
  by_cases hb : s.st = .busy
  · obtain ⟨i, hd, hf⟩ := hs.fetchSequencer_of_busy hb
    obtain ⟨t, h⟩ := hs.exec_completes hb hd
    exact ⟨t, by rw [hf]; exact h⟩
  · exact ⟨s, hs.fetchSequencer_at_rest hb⟩

/-- A command completes, but for a START without its inputs (R257 to R259). -/
theorem exec_command_safe {w : Word} {i : Instr} (hd : decode .H w = .ok i) (s : State) : SafeOutcome (exec i s) := by
  rcases decodeH_cases hd with ⟨-, rfl⟩ | ⟨-, rfl⟩ | ⟨-, rfl⟩
  · trivial
  · show SafeOutcome (execStart s)
    unfold execStart
    split
    · trivial
    · split
      · trivial
      · exact .inl rfl
  · show SafeOutcome (execAbort s)
    unfold execAbort
    split <;> trivial

/-- A host access completes, but for a START without its inputs. -/
theorem fetchHost_safe (a : HostAccess) (s : State) : SafeOutcome (fetchHost a s).outcome := by
  cases a with
  | read => trivial
  | write offset width v =>
    by_cases hlegal : accessLegal offset width = true
    · rw [fetchHost, if_pos hlegal]
      cases windowReg s.cfg offset
      case ctrl =>
        cases hd : decode .H v with
        | ok i => exact exec_command_safe hd s
        | rejected => trivial
      all_goals trivial
    · rw [fetchHost, if_neg hlegal]
      trivial

/-- A change of the dataset is taken outside a computation only (R71). -/
theorem step_dataset_safe {s : State} {d : Dataset} {rest : List Event} (hw : s.cfg.wf = true)
    (he : s.env = .dataset d :: rest) : SafeOutcome (step s) := by
  unfold step fetch
  rw [if_pos hw, he]
  by_cases hb : s.st = .busy
  · simp only [hb, if_true]
    exact .inr rfl
  · simp only [hb, if_false]
    trivial

/-- Settles O8: the outcome of each agent's turn; only the host's and the platform's can be a refusal. -/
theorem stepIsSafe : Obligations.StepIsSafe := by
  intro s hs
  obtain ⟨hw, -⟩ := id hs
  have hidle (he : s.env = []) : ∃ t, step s = .next t := by
    rw [step_nil hw he]
    exact hs.sequencer_completes
  refine ⟨?_, hidle⟩
  cases he : s.env with
  | nil => exact .of_next (hidle he)
  | cons e rest =>
    cases e with
    | sequencer =>
      rw [step_sequencer hw he]
      exact .of_next (hs.with_free rest s.werr s.rdata s.freeCount).sequencer_completes
    | host a =>
      rw [step_host hw he]
      exact fetchHost_safe a _
    | answer => exact .of_next ⟨_, step_answer hw he⟩
    | staleAnswer => exact .of_next ⟨_, step_staleAnswer hw he⟩
    | dataset d => exact step_dataset_safe hw he
    | reset => exact .of_next ⟨_, step_reset hw he⟩

end Sys2Proof.Machine
end
